-- ==== Sys2Proof/Word.lean ====
section
/-! DEFINITION. The block's two word types and its byte sequences (00_scope.md R5). -/

namespace Sys2Proof

/-- A byte: 8 bits, bit 7 most significant (R5). -/
abbrev Byte := BitVec 8

/-- A `u16`: 16 bits, bit 15 most significant (R5). -/
abbrev Word := BitVec 16

/-- A byte sequence, index 0 first (R5). Every operand and response buffer holds one (R30, R31). -/
abbrev Bytes := List Byte

end Sys2Proof
end

