-- ==== Sys2Proof/Config.lean ====
section
/-! DEFINITION. The configuration `CFG` of 00_scope.md R4: what one instance of the block has
hardwired. Every parameter is `OPEN` in the spec: the shared operations take a `Cfg` as an argument, and the
machine's own is the uninterpreted constant `Config.openCfg` (assumption log 5). -/

namespace Sys2Proof

/-- The order of the two bytes of a 16-bit value in a byte sequence (R34, R49). -/
inductive ByteOrder where
  | msbFirst
  | lsbFirst
deriving DecidableEq, Repr, Inhabited

/-- Level B of the checksum (40_checksum.md R66): `CK_INIT`, `CK_STEP`, `CK_FIN`. -/
structure Generator where
  init : Word
  step : Word → Byte → Word
  fin : Word → Word
deriving Inhabited

/-- Level C of the checksum (40_checksum.md R68, R69): the parameters of the CRC family. -/
structure CrcParams where
  /-- `CK_POLY`: bit `i` is the coefficient of `x^i`, the `x^16` term implicit. -/
  poly : Word
  /-- `CK_INIT`. -/
  init : Word
  /-- `CK_REFIN`. -/
  refIn : Bool
  /-- `CK_REFOUT`. -/
  refOut : Bool
  /-- `CK_XOROUT`. -/
  xorOut : Word
deriving DecidableEq, Repr, Inhabited

/-- The checksum at the level at which an instance fixes it: each level of 40_checksum.md narrows the one
before. A claim about `Checksum` without a premise on its level is a claim at level A. -/
inductive Checksum where
  /-- Level A (R65): any total function from byte sequences to 16 bits. -/
  | function (ckFn : Bytes → Word)
  /-- Level B (R66): an iterative generator. -/
  | iterative (g : Generator)
  /-- Level C (R68, R69): the CRC family. -/
  | crc (p : CrcParams)
deriving Inhabited

/-- One entry `(o, M)` of `FRAME_TABLE` (30_encoding.md R50). -/
structure FrameEntry where
  /-- The opcode bytes `o`, of length N. -/
  opcode : Bytes
  /-- The payload length M that opcode takes. -/
  payLen : Nat
deriving DecidableEq, Repr, Inhabited

/-- `CFG` (R4). -/
structure Cfg where
  checksum : Checksum
  /-- `CK_ORDER`: the order of the checksum bytes on the wire. -/
  ckOrder : ByteOrder
  /-- `KEY_ORDER`: the order of the key bytes in the checksum input. -/
  keyOrder : ByteOrder
  /-- `FRAME_TABLE`. -/
  frameTable : List FrameEntry
  /-- `BUF_MAX`; `none` is unbounded. -/
  bufMax : Option Nat
deriving Inhabited

/-- `KEY_SPACE` of R4. Irreducible, so that no proof enumerates the keys by unfolding; `Config.keySpace_eq` gives
its value. -/
@[irreducible] def Config.keySpace : Nat := 65536

/-- The parameters an implementation freezes before use (R4, R17): nothing is assumed of them. -/
opaque Config.openCfg : Cfg

end Sys2Proof
end

