-- ==== Sys2Proof/Syntax.lean ====
section
/-! DEFINITION. The five operations of spec/opcode_table.json with the fields of their request formats
(30_encoding.md R55, R56), and the request record the host presents (10_state.md R11). -/

namespace Sys2Proof

/-- A byte sequence of length exactly 2, in wire order (`REQ.OBS`, R11). -/
structure BytePair where
  first : Byte
  second : Byte
deriving DecidableEq, Repr

/-- The two bytes as a sequence. -/
def BytePair.toBytes (p : BytePair) : Bytes := [p.first, p.second]

/-- One constructor per row of the operation table, its arguments the fields of the row's format (R56). -/
inductive Instr where
  /-- `CKSUM`, format `QD`, `OP = 000` (R74). -/
  | cksum (dat : Bytes)
  /-- `ENCODE`, format `QE`, `OP = 001` (R80). -/
  | encode (dev : Byte) (opc pay : Bytes) (key : Word)
  /-- `DECODE`, format `QR`, `OP = 010` (R84). -/
  | decode (raw : Bytes)
  /-- `VERIFY`, format `QV`, `OP = 011` (R88). -/
  | verify (dev : Byte) (opc pay : Bytes) (ck key : Word)
  /-- `RECOVER`, format `QK`, `OP = 100` (R100). -/
  | recover (dat : Bytes) (obs : BytePair)
deriving DecidableEq, Repr

/-- The request record of R11: every field, whatever the operation uses. A field the operation does not
use is ignored (R56), so its value here stands for whatever the host leaves on it. -/
structure Request where
  op : BitVec 3
  dev : Byte
  opc : Bytes
  pay : Bytes
  key : Word
  ck : Word
  raw : Bytes
  dat : Bytes
  obs : BytePair
deriving DecidableEq, Repr

end Sys2Proof
end

