-- ==== Sys2Proof/WellFormed.lean ====
section
/-! DEFINITION. The two checks of the spec on given data: the configuration's (30_encoding.md R52,
10_state.md R17) and the request's size against `BUF_MAX` (20_memory.md R32). -/

namespace Sys2Proof

/-- `len(o) + M`: the length of the `rest` an entry accounts for (R51). -/
def FrameEntry.restLen (e : FrameEntry) : Nat := e.opcode.length + e.payLen

/-- R52 for two entries: (a) different opcode bytes; (b) if they account for equally long `rest`s, neither
opcode is a prefix of the other. -/
def FrameEntry.compatible (e f : FrameEntry) : Bool :=
  e.opcode != f.opcode &&
    (e.restLen != f.restLen || !(e.opcode.isPrefixOf f.opcode || f.opcode.isPrefixOf e.opcode))

/-- `FRAME_TABLE` is well formed (R52 (a) and (b)): every entry is compatible with every later one. -/
def frameTableWf : List FrameEntry → Bool
  | [] => true
  | e :: rest => rest.all e.compatible && frameTableWf rest

/-- A legal configuration: a well-formed table whose frames fit `BUF_MAX` (R52), and `BUF_MAX` at least 3
if bounded (R17). Every value of the other parameters is legal. -/
def Cfg.legal (c : Cfg) : Bool :=
  frameTableWf c.frameTable &&
    match c.bufMax with
    | none => true
    | some n => decide (3 ≤ n) && c.frameTable.all fun e => decide (e.restLen + 3 ≤ n)

/-- `n` bytes fit a buffer of the block (R32). -/
def Cfg.fits (c : Cfg) (n : Nat) : Bool :=
  match c.bufMax with
  | none => true
  | some m => decide (n ≤ m)

/-- Every byte sequence of the request's format fits, and so does the frame `ENCODE` would build (R32; assumption
log 8). A `VERIFY` also has a body that fits: R14 and R76 give a stream of at most `BUF_MAX + 2` bytes, a body of
`BUF_MAX` and two key bytes (assumption log 18). -/
def Instr.wf (c : Cfg) : Instr → Bool
  | .cksum dat => c.fits dat.length
  | .encode _ opc pay _ =>
    c.fits opc.length && c.fits pay.length && c.fits (1 + opc.length + pay.length + 2)
  | .decode raw => c.fits raw.length
  | .verify _ opc pay _ _ =>
    c.fits opc.length && c.fits pay.length && c.fits (1 + opc.length + pay.length)
  | .recover dat _ => c.fits dat.length

end Sys2Proof
end

