-- ==== Sys2Proof/Decode.lean ====
section
/-! DEFINITION. The operation decoder (30_encoding.md R55, R56, R58): total on every request, rejecting the
three reserved `OP` values by name. After it the encoder, written from the same table. The block has no flat
instruction word: an encoding is the `OP` bits, the format and its fields (R56, 95_test_vectors.md). -/

namespace Sys2Proof

/-- Why a request names no operation. -/
inductive DecodeError where
  /-- `REQ.OP` is `101`, `110` or `111` (R58). -/
  | reservedOp (op : BitVec 3)
deriving DecidableEq, Repr

/-- Selects the operation by `REQ.OP` alone (R55) and keeps the fields of its format only (R56). -/
def decode (r : Request) : Except DecodeError Instr :=
  match r.op.toNat with
  | 0 => .ok (.cksum r.dat)
  | 1 => .ok (.encode r.dev r.opc r.pay r.key)
  | 2 => .ok (.decode r.raw)
  | 3 => .ok (.verify r.dev r.opc r.pay r.ck r.key)
  | 4 => .ok (.recover r.dat r.obs)
  | _ => .error (.reservedOp r.op)

/-- The operation code of R55. -/
def opCode : Instr → BitVec 3
  | .cksum _ => 0b000#3
  | .encode _ _ _ _ => 0b001#3
  | .decode _ => 0b010#3
  | .verify _ _ _ _ _ => 0b011#3
  | .recover _ _ => 0b100#3

/-- A request with operation code `op` and every other field zero or empty. -/
def Request.bare (op : BitVec 3) : Request :=
  { op := op, dev := 0, opc := [], pay := [], key := 0, ck := 0, raw := [], dat := [], obs := ⟨0, 0⟩ }

/-- The request of an operation (R55, R56); the fields outside its format are zero or empty. -/
def encode (i : Instr) : Request :=
  match i with
  | .cksum dat => { Request.bare (opCode i) with dat := dat }
  | .encode dev opc pay key => { Request.bare (opCode i) with dev := dev, opc := opc, pay := pay, key := key }
  | .decode raw => { Request.bare (opCode i) with raw := raw }
  | .verify dev opc pay ck key =>
    { Request.bare (opCode i) with dev := dev, opc := opc, pay := pay, ck := ck, key := key }
  | .recover dat obs => { Request.bare (opCode i) with dat := dat, obs := obs }

/-- The request an opcode-table word stands for: `REQ.OP` is bits 2..0; the table gives no other field a bit,
so every other field is zero or empty (assumption log 10). -/
def requestOfTableWord (nbits w : Nat) : Request := Request.bare (BitVec.ofNat 3 (w % 2 ^ nbits))

/-- The instruction the decoder reads from an opcode-table word (R55, R58). -/
def decodeTableWord (nbits w : Nat) : Option Instr :=
  match decode (requestOfTableWord nbits w) with
  | .ok i => some i
  | .error _ => none

end Sys2Proof
end

