-- ==== Sys2Proof/Machine/State.lean ====
section
/-! DEFINITION. The state of the block: the response latch (10_state.md R12), the operation in progress with
its latched request and working registers (R11, R13, R14, R15, R19), and the host's events not yet taken
(assumption log 2). Plain data. -/

namespace Sys2Proof.Machine

/-- The response latch (R12). A result field that holds no value is absent (R24); with `valid = false` every
other field is (R23). -/
structure Response where
  valid : Bool
  op : Option (BitVec 3)
  err : Option (BitVec 3)
  sum : Option Word
  raw : Option Bytes
  dev : Option Byte
  opc : Option Bytes
  pay : Option Bytes
  ck : Option Word
  /-- `RSP.MATCH`. -/
  matched : Option Bool
  cand : Option (List Word)
  /-- `RSP.CNT`, a natural number 0 to 65,536 (R12, R76). -/
  cnt : Option Nat
  ambig : Option Bool
deriving DecidableEq, Repr

/-- The latch with no value in any field and `VALID = 0` (R23). -/
def Response.empty : Response :=
  { valid := false, op := none, err := none, sum := none, raw := none, dev := none, opc := none, pay := none,
    ck := none, matched := none, cand := none, cnt := none, ambig := none }

/-- The names of the response fields (R12). -/
inductive RspField where
  | valid | op | err | sum | raw | dev | opc | pay | ck | matched | cand | cnt | ambig
deriving DecidableEq, Repr

/-- An operation in progress: the latched request (R11, R39) and the sequencer's working registers, which exist
only inside one operation (R10, R19; assumption log 7). -/
structure Running where
  /-- The latched `REQ.OP` and the request fields the operation uses (R39). -/
  op : Instr
  /-- `ACC` (R13); absent at level A of the checksum, which has no accumulator (R65; assumption log 6). -/
  acc : Option Word
  /-- `IDX` (R14). -/
  idx : Nat
  /-- `K` (R15). -/
  k : BitVec 17
  /-- The candidates found so far (the pseudocode's `CAND`, R100). -/
  cand : List Word
deriving DecidableEq, Repr

/-- What the host or the platform does next (assumption log 2). -/
inductive HostEvent where
  /-- The host issues a request and waits for its response (R37, R117). -/
  | request (r : Request)
  /-- The host issues a request and does not wait: what follows may land inside the operation. -/
  | start (r : Request)
  /-- The host does nothing for one beat of the sequencer. -/
  | wait
  /-- The host reads one field of the response latch (R24, R36, R143). -/
  | read (f : RspField)
  /-- The platform applies reset (R130). -/
  | reset
deriving DecidableEq, Repr

/-- The state of the machine. -/
structure State where
  /-- The response latch (R12). -/
  rsp : Response
  /-- The operation in progress; `none` when the block is idle (R127, R137). -/
  run : Option Running
  /-- The model's own field: events not yet taken, the next one first. -/
  inbox : List HostEvent
deriving DecidableEq, Repr

/-- What stops the machine. -/
inductive Fault where
  /-- Raised by a host read of a response field that holds no value (R24: "a fault of the host's program").
  Safe: a real latch would return some bits, and the model stops instead. -/
  | noValue (f : RspField)
deriving DecidableEq, Repr

/-- Why an instruction has no meaning in the model. -/
inductive Refusal where
  /-- An instruction of the table that is not modelled yet. Raised by no arm of this model. Safe: it stops. -/
  | notModelled (mnemonic : String)
deriving DecidableEq, Repr

/-- The state right after reset (R23): `RSP.VALID = 0`, no other field with a value, no operation in progress;
the host has presented nothing yet. -/
def State.reset : State := { rsp := Response.empty, run := none, inbox := [] }

end Sys2Proof.Machine
end

