-- ==== Sys2Proof/Machine/Operands.lean ====
section
/-! DEFINITION. Operand assembly: the two-byte forms of a 16-bit value (30_encoding.md R49), reads and writes
of a buffer (00_scope.md R6), the body, the checksum input and the wire frame (R45, R46, R47), and the framing
table's two matching functions (R51). -/

namespace Sys2Proof.Machine

/-- `v[15:8]` (R5). -/
def hi8 (v : Word) : Byte := v.extractLsb' 8 8

/-- `v[7:0]` (R5). -/
def lo8 (v : Word) : Byte := v.extractLsb' 0 8

/-- `enc16_O(v)` (R49). -/
def enc16 (o : ByteOrder) (v : Word) : BytePair :=
  match o with
  | .msbFirst => ⟨hi8 v, lo8 v⟩
  | .lsbFirst => ⟨lo8 v, hi8 v⟩

/-- `dec16_O([a, b])` (R49). -/
def dec16 (o : ByteOrder) (p : BytePair) : Word :=
  match o with
  | .msbFirst => p.first ++ p.second
  | .lsbFirst => p.second ++ p.first

/-- `MemRead(B, i, n)`: the `n` bytes `B[i..i+n)` (R6). Every use has `i + n <= len(B)` (R30). -/
def memRead (b : Bytes) (i n : Nat) : Bytes := (b.drop i).take n

/-- `MemWrite(B, i, n, v)` with `n = len(v)`: stores the bytes `v` at `B[i..i+n)` (R6, R31). -/
def memWrite (b : Bytes) (i : Nat) (v : Bytes) : Bytes := b.take i ++ v ++ b.drop (i + v.length)

/-- The body `[DEV] ++ OPC ++ PAY` (R7, R80). -/
def body (dev : Byte) (opc pay : Bytes) : Bytes := [dev] ++ opc ++ pay

/-- A byte sequence with the key bytes appended: the checksum input `ckin` of R46 when `d` is a body, and the
stream of one `RECOVER` evaluation (R100). -/
def withKey (c : Cfg) (d : Bytes) (key : Word) : Bytes := d ++ (enc16 c.keyOrder key).toBytes

/-- The wire frame: the body, then the checksum bytes (R45, R80). -/
def wireFrame (c : Cfg) (dev : Byte) (opc pay : Bytes) (ck : Word) : Bytes :=
  body dev opc pay ++ (enc16 c.ckOrder ck).toBytes

/-- The three parts a frame splits into without any table (R47). -/
structure FrameParts where
  dev : Byte
  /-- `raw[1..L-2)`: opcode and payload undivided. -/
  rest : Bytes
  /-- `raw[L-2..L)`. -/
  ck : BytePair
deriving DecidableEq, Repr

/-- R47: a sequence shorter than 3 bytes is not a frame. -/
def splitFrame (raw : Bytes) : Option FrameParts :=
  if raw.length < 3 then none
  else
    match memRead raw 0 1, memRead raw (raw.length - 2) 2 with
    | [dev], [a, b] => some { dev := dev, rest := memRead raw 1 (raw.length - 3), ck := ⟨a, b⟩ }
    | _, _ => none

/-- `match_fields(OPC, PAY)` (R51). -/
def matchFields (table : List FrameEntry) (opc pay : Bytes) : Bool :=
  table.any fun e => e.opcode == opc && e.payLen == pay.length

/-- `match_rest(rest)` (R51). -/
def matchRest (table : List FrameEntry) (rest : Bytes) : Option FrameEntry :=
  table.find? fun e => e.restLen == rest.length && memRead rest 0 e.opcode.length == e.opcode

/-- `FRAME_TABLE_REF` (R53): the single entry read off MM's example. The numeric vectors use it; no meaning does, and
the machine's own `FRAME_TABLE` stays open (assumption log 5). -/
def frameTableRef : List FrameEntry := [⟨[0x87, 0x05], 5⟩]

/-- `K[15:0]`: the candidate tried at count `K` (R15). -/
def candidateKey (k : BitVec 17) : Word := k.extractLsb' 0 16

end Sys2Proof.Machine
end

