-- ==== Sys2Proof/Machine/Flags.lean ====
section
/-! DEFINITION. The flags of the response latch (10_state.md R16) and the error codes (60_exceptions.md R111).
There is no carry, zero, sign or overflow flag (R16). -/

namespace Sys2Proof.Machine

/-- The error names of R111. The block returns three of them; `outOfRange` and `malformedNotification` keep
their codes for components out of scope. -/
inductive ErrorName where
  | invalidPayloadLength
  | outOfRange
  | noCandidateFound
  | malformedNotification
  | illegalOp
deriving DecidableEq, Repr

/-- The 3-bit code of an error (R111). -/
def ErrorName.code : ErrorName → BitVec 3
  | .invalidPayloadLength => 1#3
  | .outOfRange => 2#3
  | .noCandidateFound => 3#3
  | .malformedNotification => 4#3
  | .illegalOp => 5#3

/-- `RSP.ERR` of an operation that succeeds (R111). -/
def noError : BitVec 3 := 0#3

/-- `RSP.MATCH`: the recomputed checksum equals the packet's (R88). -/
def matchFlag (recomputed ck : Word) : Bool := recomputed == ck

/-- `RSP.AMBIG`: more than one candidate (R100, R103). -/
def ambigFlag (cand : List Word) : Bool := decide (1 < cand.length)

end Sys2Proof.Machine
end

