-- ==== Sys2Proof/Machine/Generator.lean ====
section
/-! DEFINITION. The checksum generator at its three levels (40_checksum.md R65 to R69) and the instance `SUM16`
(R70). The CRC family is marked by the spec as general knowledge (assumption log 16). -/

namespace Sys2Proof.Machine

/-- `reflect8(b)`: bit `i` is bit `7 - i` of `b` (R67). -/
def reflect8 (b : Byte) : Byte := b.reverse

/-- `reflect16(v)`: bit `i` is bit `15 - i` of `v` (R67). -/
def reflect16 (v : Word) : Word := v.reverse

/-- One of the eight shifts of R68. -/
def crcShift (poly a : Word) : Word := if a.msb then (a <<< 1) ^^^ poly else a <<< 1

/-- `n` shifts of R68 in turn. -/
def crcShifts (poly : Word) : Nat → Word → Word
  | 0, a => a
  | n + 1, a => crcShifts poly n (crcShift poly a)

/-- The byte as it enters the register: reflected if `CK_REFIN` (R68). -/
def crcInput (p : CrcParams) (b : Byte) : Byte := if p.refIn then reflect8 b else b

/-- `CK_STEP` of the CRC family (R68). -/
def crcStep (p : CrcParams) (acc : Word) (b : Byte) : Word :=
  crcShifts p.poly 8 (acc ^^^ ((crcInput p b).zeroExtend 16 <<< 8))

/-- `CK_FIN` of the CRC family (R69). -/
def crcFin (p : CrcParams) (acc : Word) : Word := (if p.refOut then reflect16 acc else acc) ^^^ p.xorOut

/-- The CRC family as a generator (R68, R69). -/
def crcGenerator (p : CrcParams) : Generator := { init := p.init, step := crcStep p, fin := crcFin p }

/-- `SUM16` (R70): the byte sum modulo 65,536, an illustrative instance only. -/
def sum16 : Generator := { init := 0, step := fun acc b => acc + b.zeroExtend 16, fin := fun acc => acc }

/-- `ACC` after the bytes `s` absorbed from `acc` in index order (R33, R66). -/
def absorb (g : Generator) (acc : Word) (s : Bytes) : Word := s.foldl g.step acc

/-- `CKSUM(s)` at level B: `CK_FIN(foldl CK_STEP CK_INIT s)` (R66). -/
def evaluate (g : Generator) (s : Bytes) : Word := g.fin (absorb g g.init s)

/-- The generator of an instance fixed at level B or C; at level A there is none. -/
def generatorOf : Checksum → Option Generator
  | .function _ => none
  | .iterative g => some g
  | .crc p => some (crcGenerator p)

/-- `CKSUM(s)` (R65): total at every level. -/
def checksum (ck : Checksum) (s : Bytes) : Word :=
  match ck with
  | .function ckFn => ckFn s
  | .iterative g => evaluate g s
  | .crc p => evaluate (crcGenerator p) s

/-- `ACC <- CK_INIT` (R13, R66); no accumulator at level A. -/
def accInit (ck : Checksum) : Option Word := (generatorOf ck).map Generator.init

/-- `ACC <- CK_STEP(ACC, b)` (R13, R66); no accumulator at level A. -/
def accStep (ck : Checksum) (acc : Option Word) (b : Byte) : Option Word :=
  match generatorOf ck, acc with
  | some g, some a => some (g.step a b)
  | _, _ => none

/-- `ACC` after the bytes `s` of an evaluation (R66); no accumulator at level A. -/
def accAfter (ck : Checksum) (s : Bytes) : Option Word := (generatorOf ck).map fun g => absorb g g.init s

/-- The checksum an evaluation of the stream `s` ends with: `CK_FIN(ACC)` (R66), and `CK_FN(s)` at level A (R65). -/
def accFin (ck : Checksum) (acc : Option Word) (s : Bytes) : Word :=
  match generatorOf ck, acc with
  | some g, some a => g.fin a
  | _, _ => checksum ck s

end Sys2Proof.Machine
end

