-- ==== Sys2Proof/Machine/Ops.lean ====
section
/-! DEFINITION. The operations every meaning shares: the machine's configuration, the two shapes of a response
(success and error), completing an operation, ending it with an error, the reset event, admission, and a host's
read of a response field. -/

namespace Sys2Proof.Machine

/-- The legal configuration an arbitrary one stands for: itself when it is legal, else the same with the empty
table and no bound, which is legal (R52: the empty table is well formed). -/
def settleCfg (c : Cfg) : Cfg := if c.legal then c else { c with frameTable := [], bufMax := none }

/-- The machine's `CFG`: any legal configuration (R4, R52; assumption log 5). -/
def cfg : Cfg := settleCfg Config.openCfg

/-- A response of operation code `op` with error code `err` and no result field (R57, R115). -/
def bareResponse (op err : BitVec 3) : Response :=
  { Response.empty with valid := true, op := some op, err := some err }

/-- What every successful response starts from: `VALID`, `OP`, `ERR = 0` (R57); the meaning adds its results. -/
def okResponse (op : BitVec 3) : Response := bareResponse op noError

/-- The error response of R115: `VALID`, `OP`, `ERR` and nothing else. -/
def errorResponse (op : BitVec 3) (e : ErrorName) : Response := bareResponse op e.code

/-- The operation completes: the whole response becomes visible at once (R38) and the block is idle (R19). -/
def State.complete (s : State) (r : Response) : State := { s with rsp := r, run := none }

/-- `raise <Error>` (R6, R110, R115), this block's exception entry: the error response and nothing else. There is
no return from it: the block is idle and admits the next request (R119). -/
def State.raise (s : State) (op : BitVec 3) (e : ErrorName) : State := s.complete (errorResponse op e)

/-- The reset event (R130, R23): the latch is empty, an operation in progress is abandoned without a response.
The events the host has still to present are outside the block and stay (assumption log 13). -/
def State.applyReset (s : State) : State := { State.reset with inbox := s.inbox }

/-- Admission by size (R32). -/
def admits (c : Cfg) (i : Instr) : Bool := i.wf c

/-- A value read from the response latch. -/
inductive RspValue where
  | bit (b : Bool)
  | code (c : BitVec 3)
  | byte (b : Byte)
  | word (w : Word)
  | bytes (b : Bytes)
  | words (l : List Word)
  | count (n : Nat)
deriving DecidableEq, Repr

/-- The value a response field holds, if it holds one (R12, R24). -/
def Response.get (r : Response) : RspField → Option RspValue
  | .valid => some (.bit r.valid)
  | .op => r.op.map .code
  | .err => r.err.map .code
  | .sum => r.sum.map .word
  | .raw => r.raw.map .bytes
  | .dev => r.dev.map .byte
  | .opc => r.opc.map .bytes
  | .pay => r.pay.map .bytes
  | .ck => r.ck.map .word
  | .matched => r.matched.map .bit
  | .cand => r.cand.map .words
  | .cnt => r.cnt.map .count
  | .ambig => r.ambig.map .bit

end Sys2Proof.Machine
end

