-- ==== Sys2Proof/Machine/Checksum.lean ====
section
/-! DEFINITION. The operation `CKSUM` (40_checksum.md R74). -/

namespace Sys2Proof.Machine

/-- The response of `CKSUM` once its checksum is known (R57). -/
def cksumResult (sum : Word) : Response := { okResponse 0b000#3 with sum := some sum }

/-- `RSP.SUM <- CKSUM(REQ.DAT)` (R74). -/
def cksumResponse (c : Cfg) (dat : Bytes) : Response := cksumResult (checksum c.checksum dat)

/-- The meaning of `CKSUM`: total, no exception (R74). -/
def execCksum (dat : Bytes) (s : State) : Host.Outcome State Fault Refusal :=
  .next (s.complete (cksumResponse cfg dat))

end Sys2Proof.Machine
end

