-- ==== Sys2Proof/Machine/Framer.lean ====
section
/-! DEFINITION. The packet framer's three operations `ENCODE`, `DECODE`, `VERIFY` (41_framer.md). -/

namespace Sys2Proof.Machine

/-- The response of `ENCODE` once its checksum is known (R80). -/
def encodeResult (c : Cfg) (dev : Byte) (opc pay : Bytes) (ck : Word) : Response :=
  { okResponse 0b001#3 with raw := some (wireFrame c dev opc pay ck) }

/-- `ENCODE` (R80); the table is consulted before any checksum is computed (R81, R118). -/
def encodeResponse (c : Cfg) (dev : Byte) (opc pay : Bytes) (key : Word) : Response :=
  if matchFields c.frameTable opc pay then
    encodeResult c dev opc pay (checksum c.checksum (withKey c (body dev opc pay) key))
  else errorResponse 0b001#3 .invalidPayloadLength

/-- The response of `DECODE` once the table has divided the frame (R84). -/
def decodeResult (c : Cfg) (f : FrameParts) (e : FrameEntry) : Response :=
  { okResponse 0b010#3 with
    dev := some f.dev
    opc := some (memRead f.rest 0 e.opcode.length)
    pay := some (memRead f.rest e.opcode.length e.payLen)
    ck := some (dec16 c.ckOrder f.ck) }

/-- `DECODE` (R84, R85): the length test comes before the table match (R118). -/
def decodeResponse (c : Cfg) (raw : Bytes) : Response :=
  match splitFrame raw with
  | none => errorResponse 0b010#3 .invalidPayloadLength
  | some f =>
    match matchRest c.frameTable f.rest with
    | none => errorResponse 0b010#3 .invalidPayloadLength
    | some e => decodeResult c f e

/-- The response of `VERIFY` once its checksum is known (R88). -/
def verifyResult (recomputed ck : Word) : Response :=
  { okResponse 0b011#3 with matched := some (matchFlag recomputed ck) }

/-- `VERIFY` (R88): total, consults no table (R89). -/
def verifyResponse (c : Cfg) (dev : Byte) (opc pay : Bytes) (ck key : Word) : Response :=
  verifyResult (checksum c.checksum (withKey c (body dev opc pay) key)) ck

/-- The meaning of `ENCODE` (R80, R81). -/
def execEncode (dev : Byte) (opc pay : Bytes) (key : Word) (s : State) : Host.Outcome State Fault Refusal :=
  .next (s.complete (encodeResponse cfg dev opc pay key))

/-- The meaning of `DECODE` (R84, R85). -/
def execDecode (raw : Bytes) (s : State) : Host.Outcome State Fault Refusal :=
  .next (s.complete (decodeResponse cfg raw))

/-- The meaning of `VERIFY` (R88). -/
def execVerify (dev : Byte) (opc pay : Bytes) (ck key : Word) (s : State) : Host.Outcome State Fault Refusal :=
  .next (s.complete (verifyResponse cfg dev opc pay ck key))

end Sys2Proof.Machine
end

