-- ==== Sys2Proof/Machine/KeyRecovery.lean ====
section
/-! DEFINITION. The operation `RECOVER` (42_key_recovery.md R100 to R108). -/

namespace Sys2Proof.Machine

/-- Key `k` reproduces the observed checksum after the bytes `dat` (R100). -/
def isCandidate (c : Cfg) (dat : Bytes) (target k : Word) : Bool :=
  checksum c.checksum (withKey c dat k) == target

/-- The candidates among the keys `0` to `n - 1`, in increasing order (R100, R101, R108). -/
def candidatesBelow (c : Cfg) (dat : Bytes) (target : Word) (n : Nat) : List Word :=
  ((List.range n).map (BitVec.ofNat 16)).filter (isCandidate c dat target)

/-- Every candidate of the key space (R100). -/
def candidates (c : Cfg) (dat : Bytes) (obs : BytePair) : List Word :=
  candidatesBelow c dat (dec16 c.ckOrder obs) Config.keySpace

/-- The response of `RECOVER` once the whole range has been tried (R100, R102): the empty set is the only error
(R103). -/
def recoverResult (cand : List Word) : Response :=
  if cand.isEmpty then errorResponse 0b100#3 .noCandidateFound
  else
    { okResponse 0b100#3 with
      cand := some cand
      cnt := some cand.length
      ambig := some (ambigFlag cand) }

/-- `RECOVER` (R100). -/
def recoverResponse (c : Cfg) (dat : Bytes) (obs : BytePair) : Response := recoverResult (candidates c dat obs)

/-- The meaning of `RECOVER` (R100). -/
def execRecover (dat : Bytes) (obs : BytePair) (s : State) : Host.Outcome State Fault Refusal :=
  .next (s.complete (recoverResponse cfg dat obs))

end Sys2Proof.Machine
end

