-- ==== Sys2Proof/Machine/Dispatch.lean ====
section
/-! DEFINITION. One arm per operation of spec/opcode_table.json. -/

namespace Sys2Proof.Machine

def exec (i : Instr) (s : State) : Host.Outcome State Fault Refusal :=
  match i with
  | .cksum dat => Sys2Proof.Machine.execCksum dat s
  | .encode dev opc pay key => Sys2Proof.Machine.execEncode dev opc pay key s
  | .decode raw => Sys2Proof.Machine.execDecode raw s
  | .verify dev opc pay ck key => Sys2Proof.Machine.execVerify dev opc pay ck key s
  | .recover dat obs => Sys2Proof.Machine.execRecover dat obs s

end Sys2Proof.Machine
end

