-- ==== Sys2Proof/Machine/Sequencer.lean ====
section
/-! DEFINITION. The sequencer, one beat at a time (40_checksum.md R66, 42_key_recovery.md R100, R101): a beat
absorbs one byte or ends one evaluation. An operation the host starts without waiting runs on these beats, so that a
reset or another request can land inside it (R130, R137). The beats are the same at every level of the checksum: level
A has the positions `IDX` and `K` and no accumulator (assumption log 6). An operation that evaluates no checksum
completes as it is started (assumption log 12). -/

namespace Sys2Proof.Machine

/-- The response of each operation under `c`: the pure function of R10. -/
def response (c : Cfg) : Instr → Response
  | .cksum dat => cksumResponse c dat
  | .encode dev opc pay key => encodeResponse c dev opc pay key
  | .decode raw => decodeResponse c raw
  | .verify dev opc pay ck key => verifyResponse c dev opc pay ck key
  | .recover dat obs => recoverResponse c dat obs

/-- The operation evaluates a checksum: not `DECODE` (R84), and not an `ENCODE` the table refuses (R81). -/
def evaluates (c : Cfg) : Instr → Bool
  | .cksum _ => true
  | .encode _ opc pay _ => matchFields c.frameTable opc pay
  | .decode _ => false
  | .verify _ _ _ _ _ => true
  | .recover _ _ => true

/-- The byte stream of the evaluation in progress (R46, R74, R100). -/
def Running.stream (c : Cfg) (r : Running) : Bytes :=
  match r.op with
  | .cksum dat => dat
  | .encode dev opc pay key => withKey c (body dev opc pay) key
  | .decode _ => []
  | .verify dev opc pay _ key => withKey c (body dev opc pay) key
  | .recover dat _ => withKey c dat (candidateKey r.k)

/-- `ACC <- CK_INIT`, `IDX <- 0`, `K <- 0`, `CAND <- []` on the latched operation (R13, R14, R15, R100). -/
def Running.fresh (c : Cfg) (i : Instr) : Running :=
  { op := i, acc := accInit c.checksum, idx := 0, k := 0, cand := [] }

/-- The evaluation in progress has ended with checksum `v`: the operation ends with its response, or, in
`RECOVER`, the next evaluation begins unless `K` has reached 65,536 (R101). -/
def Running.endEvaluation (c : Cfg) (r : Running) (v : Word) : Running ⊕ Response :=
  match r.op with
  | .cksum _ => .inr (cksumResult v)
  | .encode dev opc pay _ => .inr (encodeResult c dev opc pay v)
  | .decode raw => .inr (decodeResponse c raw)
  | .verify _ _ _ ck _ => .inr (verifyResult v ck)
  | .recover _ obs =>
    let cand := if v == dec16 c.ckOrder obs then r.cand ++ [candidateKey r.k] else r.cand
    if r.k + 1 == 65536#17 then .inr (recoverResult cand)
    else .inl { r with acc := accInit c.checksum, idx := 0, k := r.k + 1, cand := cand }

/-- One beat of a running operation: absorb `s[IDX]` while `IDX < len(s)`, else end the evaluation (R66). -/
def Running.beat (c : Cfg) (r : Running) : Running ⊕ Response :=
  match (r.stream c)[r.idx]? with
  | some b => .inl { r with acc := accStep c.checksum r.acc b, idx := r.idx + 1 }
  | none => r.endEvaluation c (accFin c.checksum r.acc (r.stream c))

/-- One beat of the block: a running operation advances; an idle block keeps its response latch (R127). -/
def beat (c : Cfg) (s : State) : State :=
  match s.run with
  | none => s
  | some r =>
    match r.beat c with
    | .inl r' => { s with run := some r' }
    | .inr rsp => s.complete rsp

/-- `n` beats. -/
def beats (c : Cfg) : Nat → State → State
  | 0, s => s
  | n + 1, s => beats c n (beat c s)

/-- Issue without waiting: latch the operation and begin its first evaluation (R39). -/
def startOp (c : Cfg) (i : Instr) (s : State) : State :=
  if evaluates c i then { s with run := some (Running.fresh c i) } else s.complete (response c i)

end Sys2Proof.Machine
end

