-- ==== Sys2Proof/Machine/Port.lean ====
section
/-! DEFINITION. What each event of the host or the platform does to the block: a request, a start, a wait, a read,
a reset. -/

namespace Sys2Proof.Machine

/-- The port: the outcome of an operation if its request is admitted; otherwise no step of the block, which stays
as it was (R32, R137; assumption log 3). -/
def port (admitted : Bool) (stay : State) : Host.Outcome State Fault Refusal → Host.Outcome State Fault Refusal
  | .next t => .next (if admitted then t else stay)
  | .fault f => if admitted then .fault f else .next stay
  | .refused r => if admitted then .refused r else .next stay

/-- A request issued and waited for. While an operation runs it is not admitted and does not disturb it (R137). A
reserved `OP` ends at once with `IllegalOp` (R58, R114); any other request that fits runs its operation (R32, R37). -/
def hostRequest (r : Request) (s : State) : Host.Outcome State Fault Refusal :=
  match s.run with
  | some _ => .next s
  | none =>
    match decode r with
    | .error (.reservedOp op) => .next (s.raise op .illegalOp)
    | .ok i => port (admits cfg i) s (exec i s)

/-- A request issued without waiting; admission as for `hostRequest`. -/
def hostStart (r : Request) (s : State) : State :=
  match s.run with
  | some _ => s
  | none =>
    match decode r with
    | .error (.reservedOp op) => s.raise op .illegalOp
    | .ok i => if admits cfg i then startOp cfg i s else s

/-- A read of a response field: no side effect (R36); a fault if the field holds no value (R24, R143). -/
def hostRead (f : RspField) (s : State) : Host.Outcome State Fault Refusal :=
  match s.rsp.get f with
  | some _ => .next s
  | none => .fault (.noValue f)

/-- One event, taken by a block whose inbox no longer holds it. -/
def takeEvent (e : HostEvent) (s : State) : Host.Outcome State Fault Refusal :=
  match e with
  | .request r => hostRequest r s
  | .start r => .next (hostStart r s)
  | .wait => .next (beat cfg s)
  | .read f => hostRead f s
  | .reset => .next s.applyReset

end Sys2Proof.Machine
end

