-- ==== Sys2Proof/Machine/Step.lean ====
section
/-! DEFINITION. One step of the machine: the next event of the host, or, when there is none, one beat. -/

namespace Sys2Proof.Machine

/-- One step (assumption log 1, 2). -/
def step (s : State) : Host.Outcome State Fault Refusal :=
  match s.inbox with
  | [] => .next (beat cfg s)
  | e :: rest => takeEvent e { s with inbox := rest }

/-- `s` idle, with the request of an opcode-table word presented first (assumption log 10). -/
def State.withFetchWord (s : State) (nbits w : Nat) : State :=
  { s with run := none, inbox := .request (requestOfTableWord nbits w) :: s.inbox }

end Sys2Proof.Machine
end

