-- ==== Sys2Proof/Machine/Pseudo.lean ====
section
/-! DEFINITION. The three pseudo-operations of 30_encoding.md R62: host work plus operations of the block. -/

namespace Sys2Proof.Machine

/-- `RECOVER_PKT full`: `RECOVER` on the packet's body and its last two bytes; `none` if the packet is shorter
than 2 bytes (R60, R62). -/
def recoverPkt (full : Bytes) : Option Instr :=
  match memRead full (full.length - 2) 2 with
  | [a, b] => some (.recover (memRead full 0 (full.length - 2)) ⟨a, b⟩)
  | _ => none

/-- The second request of `VERIFY_RAW`, made of the fields `DECODE` left; `none` if `DECODE` ended with an error
(R62). -/
def verifyOfDecoded (d : Response) (key : Word) : Option Instr :=
  match d.err, d.dev, d.opc, d.pay, d.ck with
  | some 0#3, some dev, some opc, some pay, some ck => some (.verify dev opc pay ck key)
  | _, _, _, _, _ => none

/-- `VERIFY_RAW raw key`: `DECODE`, then `VERIFY` on its fields if it succeeded (R62). Where the `DECODE` gets no
response, because the block is busy (R137) or `raw` is too long (R32), R62 says nothing: the host goes no further and
the block stays as it was (DESIGN CHOICE, assumption log 19). A `VERIFY` of decoded fields is never too long. -/
def verifyRaw (raw : Bytes) (key : Word) (s : State) : Host.Outcome State Fault Refusal :=
  if s.run.isNone && admits cfg (.decode raw) then
    match exec (.decode raw) s with
    | .next d =>
      match verifyOfDecoded d.rsp key with
      | some v => exec v d
      | none => .next d
    | o => o
  else .next s

/-- `INTERSECT`: the values present in both candidate lists, in the order of the first (R62, R104). -/
def intersect (a b : List Word) : List Word := a.filter fun k => b.contains k

end Sys2Proof.Machine
end

