-- ==== Sys2Proof/Safety.lean ====
section
/-! DEFINITION. What a legal state of the block is, in the terms the statements use: the response latch holds
what 30_encoding.md R57 and 60_exceptions.md R111 allow, and an operation in progress is where its rules put it. -/

namespace Sys2Proof.Machine

/-- The result fields of an operation that ends with `ERR = 0` (R57); none for a reserved code. -/
def resultFields (op : BitVec 3) : List RspField :=
  match op.toNat with
  | 0 => [.sum]
  | 1 => [.raw]
  | 2 => [.dev, .opc, .pay, .ck]
  | 3 => [.matched]
  | 4 => [.cand, .cnt, .ambig]
  | _ => []

/-- The `ERR` values an operation can return (R57); `IllegalOp` alone for a reserved code. -/
def errorCodes (op : BitVec 3) : List (BitVec 3) :=
  match op.toNat with
  | 0 => [0#3]
  | 1 => [0#3, 1#3]
  | 2 => [0#3, 1#3]
  | 3 => [0#3]
  | 4 => [0#3, 3#3]
  | _ => [5#3]

/-- The response holds a value in field `f`. -/
def Response.holds (r : Response) (f : RspField) : Bool := (r.get f).isSome

/-- The fields that hold a value are those R57 gives an operation of code `op` that ended with `err`. -/
def Response.shapedAs (r : Response) (op err : BitVec 3) : Prop :=
  ∀ f, r.holds f = true ↔ f ∈ [RspField.valid, .op, .err] ∨ err = 0#3 ∧ f ∈ resultFields op

/-- The candidate list, if any, is strictly increasing and not empty, and `CNT` and `AMBIG` are its own (R100). -/
def Response.candidatesAgree (r : Response) : Prop :=
  ∀ l, r.cand = some l →
    l.Pairwise (· < ·) ∧ l ≠ [] ∧ r.cnt = some l.length ∧ r.ambig = some (decide (1 < l.length))

/-- Every byte sequence of the response fits a buffer (R32), and a frame has at least 3 bytes (R80). -/
def Response.buffersFit (c : Cfg) (r : Response) : Prop :=
  (∀ b, r.raw = some b → 3 ≤ b.length) ∧
    ∀ b, r.raw = some b ∨ r.opc = some b ∨ r.pay = some b → c.fits b.length = true

/-- A legal response latch: empty, or written by one operation (R12, R23, R57, R111). -/
def Response.wf (c : Cfg) (r : Response) : Prop :=
  (r.valid = false ∧ r = Response.empty) ∨
    (r.valid = true ∧
      (∃ op err, r.op = some op ∧ r.err = some err ∧ err ∈ errorCodes op ∧ r.shapedAs op err) ∧
      r.candidatesAgree ∧ r.buffersFit c)

/-- `K` and the candidates found so far are those of the keys already tried; no operation but `RECOVER` uses
them (R15, R101). -/
def Running.keysTried (c : Cfg) (r : Running) : Prop :=
  match r.op with
  | .recover dat obs =>
    r.k.toNat < Config.keySpace ∧ r.cand = candidatesBelow c dat (dec16 c.ckOrder obs) r.k.toNat
  | .cksum _ => r.k = 0#17 ∧ r.cand = []
  | .encode _ _ _ _ => r.k = 0#17 ∧ r.cand = []
  | .decode _ => r.k = 0#17 ∧ r.cand = []
  | .verify _ _ _ _ _ => r.k = 0#17 ∧ r.cand = []

/-- A legal operation in progress: one that evaluates a checksum on an admitted request, with `IDX` inside its
stream and `ACC`, at the levels that have it, the accumulator after the first `IDX` bytes (R13, R14, R66). -/
def Running.wf (c : Cfg) (r : Running) : Prop :=
  evaluates c r.op = true ∧ admits c r.op = true ∧ r.idx ≤ (r.stream c).length ∧
    r.acc = accAfter c.checksum ((r.stream c).take r.idx) ∧ r.keysTried c

/-- The invariant of the block. -/
def State.Inv (c : Cfg) (s : State) : Prop := s.rsp.wf c ∧ ∀ r, s.run = some r → r.wf c

/-- The beats an operation takes after it is started (R145): one per absorbed byte and one per evaluation ended;
none for an operation that evaluates nothing. -/
def workOf (c : Cfg) (i : Instr) : Nat :=
  if evaluates c i then
    match i with
    | .cksum dat => dat.length + 1
    | .encode _ opc pay _ => opc.length + pay.length + 4
    | .decode _ => 0
    | .verify _ opc pay _ _ => opc.length + pay.length + 4
    | .recover dat _ => Config.keySpace * (dat.length + 3)
  else 0

end Sys2Proof.Machine
end

