-- ==== Sys2Proof/Certificates/Slice0/Obligations.lean ====
section
/-! DEFINITION. The statements about the block. A statement over `c : Cfg` holds for every configuration (every
checksum at every level, both byte orders, every table, every bound) unless it names a premise on `c`; the machine's
own `cfg` is one. A response is written out field by field: a field not named holds no value (R24). -/

open Sys2Proof Sys2Proof.Machine

/-! ### Encoding of requests (30_encoding.md R49, R55, R56, R58) -/

/-- R58: the decoder is total; an `OP` from `000` to `100` gives the operation of that code, and `101`, `110`, `111`
are rejected by name. -/
def Obligations.DecoderIsTotalOnOp : Prop :=
  ∀ r : Request,
    (r.op.toNat < 5 → ∃ i, decode r = .ok i ∧ opCode i = r.op) ∧
      (5 ≤ r.op.toNat → decode r = .error (.reservedOp r.op))

/-- R55, R56: `OP` alone selects the operation, which takes the fields of its own format whatever stands in the
others. -/
def Obligations.FormatFieldsAloneAreDecoded : Prop :=
  ∀ (r : Request),
    (r.op = 0b000#3 → decode r = .ok (.cksum r.dat)) ∧
    (r.op = 0b001#3 → decode r = .ok (.encode r.dev r.opc r.pay r.key)) ∧
    (r.op = 0b010#3 → decode r = .ok (.decode r.raw)) ∧
    (r.op = 0b011#3 → decode r = .ok (.verify r.dev r.opc r.pay r.ck r.key)) ∧
    (r.op = 0b100#3 → decode r = .ok (.recover r.dat r.obs))

/-- Decoding the encoded request of any operation, with any operands, gives the operation back. -/
def Obligations.DecodeOfEncode : Prop := ∀ i : Instr, decode (encode i) = .ok i

/-- The words of the operation table decode to its rows, and the three reserved codes to none (R55, R58). That a word
stands for a request with `OP` in its low bits and every other field zero or empty is the model's choice (log 10). -/
def Obligations.TableWordsDecode : Prop :=
  decodeTableWord 8 0b000 = some (.cksum []) ∧
    decodeTableWord 8 0b001 = some (.encode 0 [] [] 0) ∧
    decodeTableWord 8 0b010 = some (.decode []) ∧
    decodeTableWord 8 0b011 = some (.verify 0 [] [] 0 0) ∧
    decodeTableWord 8 0b100 = some (.recover [] ⟨0, 0⟩) ∧
    decodeTableWord 8 0b101 = none ∧ decodeTableWord 8 0b110 = none ∧ decodeTableWord 8 0b111 = none

/-- R49: the two orders of the two bytes of a 16-bit value, read and written, and that each is a bijection. -/
def Obligations.TwoByteFormsAreInverse : Prop :=
  (∀ v : Word, (enc16 .msbFirst v).first.toNat = v.toNat / 256 ∧ (enc16 .msbFirst v).second.toNat = v.toNat % 256) ∧
  (∀ v : Word, (enc16 .lsbFirst v).first.toNat = v.toNat % 256 ∧ (enc16 .lsbFirst v).second.toNat = v.toNat / 256) ∧
  (∀ p : BytePair, (dec16 .msbFirst p).toNat = p.first.toNat * 256 + p.second.toNat ∧
    (dec16 .lsbFirst p).toNat = p.second.toNat * 256 + p.first.toNat) ∧
  (∀ (o : ByteOrder) (v : Word), dec16 o (enc16 o v) = v) ∧
  (∀ (o : ByteOrder) (p : BytePair), enc16 o (dec16 o p) = p)

/-! ### Buffers and framing (20_memory.md, 30_encoding.md R47, R51, R52) -/

/-- R6: a read of what was written gives it back, the length stays, and every byte outside the write stays. -/
def Obligations.BufferReadAfterWrite : Prop :=
  ∀ (b v : Bytes) (i : Nat), i + v.length ≤ b.length →
    memRead (memWrite b i v) i v.length = v ∧
    (memWrite b i v).length = b.length ∧
    ∀ j, j < i ∨ i + v.length ≤ j → (memWrite b i v)[j]? = b[j]?

/-- R47: a sequence of at least 3 bytes splits into device id, undivided rest and checksum bytes, which joined give
it back; a shorter one is not a frame. -/
def Obligations.FrameSplitsIntoThreeParts : Prop :=
  ∀ raw : Bytes,
    (raw.length < 3 → splitFrame raw = none) ∧
    (3 ≤ raw.length → ∃ f, splitFrame raw = some f ∧ raw = [f.dev] ++ f.rest ++ f.ck.toBytes)

/-- R51: `match_fields` holds when the table lists the opcode with that payload length; under a well-formed table at
most one entry accounts for a `rest`, and `match_rest` returns it, or none when no entry does; and the entry by which
`match_fields` holds is the one `match_rest` finds. -/
def Obligations.MatchRestFindsTheOneEntry : Prop :=
  ∀ table : List FrameEntry, frameTableWf table = true →
    (∀ (rest : Bytes) (e f : FrameEntry), e ∈ table → f ∈ table →
      e.opcode.length + e.payLen = rest.length → e.opcode <+: rest →
      f.opcode.length + f.payLen = rest.length → f.opcode <+: rest → e = f) ∧
    (∀ (rest : Bytes) (e : FrameEntry),
      matchRest table rest = some e ↔
        e ∈ table ∧ e.opcode.length + e.payLen = rest.length ∧ e.opcode <+: rest) ∧
    (∀ (opc pay : Bytes), matchFields table opc pay = true ↔
      ∃ e ∈ table, e.opcode = opc ∧ e.payLen = pay.length) ∧
    (∀ (opc pay : Bytes), matchFields table opc pay = true →
      matchRest table (opc ++ pay) = some ⟨opc, pay.length⟩)

/-- R52, R17: the check on the table says exactly that no two entries share their opcode bytes and that every `rest`
matches at most one entry; a configuration is legal exactly when its table passes that check, `BUF_MAX` is at least 3
if bounded, and every entry's frame fits it; and the machine's own configuration is legal. -/
def Obligations.TableCheckIsUnambiguity : Prop :=
  (∀ table : List FrameEntry,
    frameTableWf table = true ↔
      (table.map FrameEntry.opcode).Nodup ∧
        ∀ (rest : Bytes) (e f : FrameEntry), e ∈ table → f ∈ table →
          e.opcode.length + e.payLen = rest.length → e.opcode <+: rest →
          f.opcode.length + f.payLen = rest.length → f.opcode <+: rest → e = f) ∧
  (∀ c : Cfg, c.legal = true ↔
    frameTableWf c.frameTable = true ∧
      ∀ n, c.bufMax = some n → 3 ≤ n ∧ ∀ e ∈ c.frameTable, e.opcode.length + e.payLen + 3 ≤ n) ∧
  cfg.legal = true

/-! ### The checksum generator (40_checksum.md) -/

/-- R67: `reflect8` and `reflect16` reverse the bits, and each is its own inverse. -/
def Obligations.ReflectReversesBits : Prop :=
  (∀ (b : Byte) (i : Nat), i < 8 → (reflect8 b).getLsbD i = b.getLsbD (7 - i)) ∧
    (∀ (v : Word) (i : Nat), i < 16 → (reflect16 v).getLsbD i = v.getLsbD (15 - i)) ∧
    (∀ b : Byte, reflect8 (reflect8 b) = b) ∧ ∀ v : Word, reflect16 (reflect16 v) = v

/-- R68: a step of the CRC family, in numbers: the byte, reflected if `CK_REFIN`, is XORed into bits 15 to 8; then
eight times bit 15 is tested, the register is doubled with the top bit lost, and the polynomial is XORed exactly when
the bit was 1. -/
def Obligations.CrcStepIsEightShifts : Prop :=
  ∀ (p : CrcParams) (acc : Word) (b : Byte),
    crcStep p acc b =
      (fun a : Word =>
        if 32768 ≤ a.toNat then BitVec.ofNat 16 (2 * a.toNat) ^^^ p.poly else BitVec.ofNat 16 (2 * a.toNat))^[8]
        (acc ^^^ BitVec.ofNat 16 (256 * (if p.refIn then reflect8 b else b).toNat))

/-- R69: `CK_FIN` of the CRC family reflects the accumulator if `CK_REFOUT` and XORs `CK_XOROUT`, and is a bijection
on 16-bit values. -/
def Obligations.CrcFinalStepIsBijective : Prop :=
  ∀ p : CrcParams,
    (∀ acc : Word, crcFin p acc = (if p.refOut then reflect16 acc else acc) ^^^ p.xorOut) ∧
      Function.Bijective (crcFin p)

/-- R65, R66, R68, R69: what `CKSUM` is at each level: the function itself; the fold of the generator's step from
`CK_INIT`, finished by `CK_FIN`; the same fold with the parameters of the CRC family. R75, R77: at level B the checksum
of the empty sequence is `CK_FIN(CK_INIT)`, the accumulator of a concatenation is absorbed from the accumulator of its
first part, and two key bytes after a body are two steps. -/
def Obligations.ChecksumComposes : Prop :=
  (∀ (f : Bytes → Word) (s : Bytes), checksum (.function f) s = f s) ∧
  (∀ (g : Generator) (s : Bytes), checksum (.iterative g) s = g.fin (s.foldl g.step g.init)) ∧
  (∀ (p : CrcParams) (s : Bytes), checksum (.crc p) s = crcFin p (s.foldl (crcStep p) p.init)) ∧
  ∀ g : Generator,
    checksum (.iterative g) [] = g.fin g.init ∧
    (∀ (a : Word) (s t : Bytes), absorb g a (s ++ t) = absorb g (absorb g a s) t) ∧
    ∀ (d : Bytes) (x y : Byte),
      checksum (.iterative g) (d ++ [x, y]) = g.fin (g.step (g.step (absorb g g.init d) x) y)

/-- A step of the CRC family is affine in the accumulator: a difference in `ACC` is carried through by the eight
shifts alone, whatever the byte. -/
def Obligations.CrcStepCarriesDifferences : Prop :=
  ∀ (p : CrcParams) (a d : Word) (b : Byte), crcStep p (a ^^^ d) b = crcStep p a b ^^^ crcShifts p.poly 8 d

/-- R78: in the CRC family the map from a key to the checksum it gives after any accumulator is a bijection on
16-bit values exactly when `CK_POLY[0]` is 1, for either byte order. -/
def Obligations.CrcKeyMapIsBijectiveIffOdd : Prop :=
  ∀ (p : CrcParams) (a : Word) (o : ByteOrder),
    Function.Bijective (fun k : Word => crcFin p (absorb (crcGenerator p) a (enc16 o k).toBytes)) ↔
      p.poly.getLsbD 0 = true

/-! ### Each operation completes, with the response its rule gives

That a whole operation is one step, which leaves the block idle and the host's events as they were, is the model's
choice (log 1, 2); the response it leaves is the rule's. -/

/-- R74: `CKSUM` completes on every operand and from every state; under every configuration its response is the
checksum of `DAT` in `SUM` and no other result. -/
def Obligations.CksumCompletes : Prop :=
  (∀ (dat : Bytes) (s : State),
    exec (.cksum dat) s = .next { rsp := response cfg (.cksum dat), run := none, inbox := s.inbox }) ∧
  ∀ (c : Cfg) (dat : Bytes),
    response c (.cksum dat) =
      { Response.empty with
        valid := true, op := some 0b000#3, err := some 0#3, sum := some (checksum c.checksum dat) }

/-- R80, R81: `ENCODE` completes on every operand and from every state; under every configuration its response is the
frame when the table lists `OPC` with the length of `PAY`, and `InvalidPayloadLength` and nothing else when it does
not. -/
def Obligations.EncodeCompletes : Prop :=
  (∀ (dev : Byte) (opc pay : Bytes) (key : Word) (s : State),
    exec (.encode dev opc pay key) s =
      .next { rsp := response cfg (.encode dev opc pay key), run := none, inbox := s.inbox }) ∧
  ∀ (c : Cfg) (dev : Byte) (opc pay : Bytes) (key : Word),
    response c (.encode dev opc pay key) =
      if ∃ e ∈ c.frameTable, e.opcode = opc ∧ e.payLen = pay.length then
        { Response.empty with
          valid := true, op := some 0b001#3, err := some 0#3
          raw := some ([dev] ++ opc ++ pay ++ (enc16 c.ckOrder (checksum c.checksum
            ([dev] ++ opc ++ pay ++ (enc16 c.keyOrder key).toBytes))).toBytes) }
      else { Response.empty with valid := true, op := some 0b001#3, err := some 1#3 }

/-- R80: where the machine's table lists the opcode with the payload's length, `ENCODE` answers the state that holds
the frame, and the same response is the frame under every configuration whose table lists them. -/
def Obligations.EncodeBuildsTheFrame : Prop :=
  ∀ (dev : Byte) (opc pay : Bytes) (key : Word),
    (∀ c : Cfg, FrameEntry.mk opc pay.length ∈ c.frameTable →
      response c (.encode dev opc pay key) =
        { Response.empty with
          valid := true, op := some 0b001#3, err := some 0#3
          raw := some ([dev] ++ opc ++ pay ++ (enc16 c.ckOrder (checksum c.checksum
            ([dev] ++ opc ++ pay ++ (enc16 c.keyOrder key).toBytes))).toBytes) }) ∧
    ∀ s : State, FrameEntry.mk opc pay.length ∈ cfg.frameTable →
      exec (.encode dev opc pay key) s =
        .next { rsp := { Response.empty with
                  valid := true, op := some 0b001#3, err := some 0#3
                  raw := some ([dev] ++ opc ++ pay ++ (enc16 cfg.ckOrder (checksum cfg.checksum
                    ([dev] ++ opc ++ pay ++ (enc16 cfg.keyOrder key).toBytes))).toBytes) }
                run := none, inbox := s.inbox }

/-- R81: under every configuration, `ENCODE` ends with `InvalidPayloadLength`, and nothing else, exactly when no
entry has the opcode bytes of `OPC` and the length of `PAY`, whatever device id and key are. -/
def Obligations.EncodeRejectsUnknownFraming : Prop :=
  ∀ (c : Cfg) (dev : Byte) (opc pay : Bytes) (key : Word),
    response c (.encode dev opc pay key) =
        { Response.empty with valid := true, op := some 0b001#3, err := some 1#3 } ↔
      FrameEntry.mk opc pay.length ∉ c.frameTable

/-- R84, R85: `DECODE` completes on every operand and from every state; under every configuration it splits a frame by
the entry `match_rest` returns, and ends with `InvalidPayloadLength` and nothing else when the sequence is no frame or
no entry matches. -/
def Obligations.DecodeCompletes : Prop :=
  (∀ (raw : Bytes) (s : State),
    exec (.decode raw) s = .next { rsp := response cfg (.decode raw), run := none, inbox := s.inbox }) ∧
  ∀ (c : Cfg) (raw : Bytes),
    response c (.decode raw) =
      match splitFrame raw with
      | none => { Response.empty with valid := true, op := some 0b010#3, err := some 1#3 }
      | some f =>
        match matchRest c.frameTable f.rest with
        | none => { Response.empty with valid := true, op := some 0b010#3, err := some 1#3 }
        | some e =>
          { Response.empty with
            valid := true, op := some 0b010#3, err := some 0#3, dev := some f.dev
            opc := some (f.rest.take e.opcode.length), pay := some (f.rest.drop e.opcode.length)
            ck := some (dec16 c.ckOrder f.ck) }

/-- R84: under every configuration with a well-formed table, a frame whose middle is an entry's opcode and as many
payload bytes as the entry says decodes to exactly those fields, and the last two bytes are the checksum. -/
def Obligations.DecodeSplitsTheFrame : Prop :=
  ∀ (c : Cfg) (e : FrameEntry) (dev : Byte) (pay : Bytes) (a b : Byte),
    c.legal = true → e ∈ c.frameTable → pay.length = e.payLen →
    response c (.decode ([dev] ++ e.opcode ++ pay ++ [a, b])) =
      { Response.empty with
        valid := true, op := some 0b010#3, err := some 0#3, dev := some dev, opc := some e.opcode
        pay := some pay, ck := some (dec16 c.ckOrder ⟨a, b⟩) }

/-- R85, R95: `DECODE` succeeds exactly on the shape of an `ENCODE` result, with any first byte and any last two;
on everything else it ends with `InvalidPayloadLength` and nothing else. -/
def Obligations.DecodeSucceedsExactlyOnFrames : Prop :=
  ∀ (c : Cfg) (raw : Bytes),
    ((response c (.decode raw)).err = some 0#3 ↔
      ∃ (dev : Byte) (e : FrameEntry) (p : Bytes) (a b : Byte),
        e ∈ c.frameTable ∧ p.length = e.payLen ∧ raw = [dev] ++ e.opcode ++ p ++ [a, b]) ∧
    ((response c (.decode raw)).err ≠ some 0#3 →
      response c (.decode raw) = { Response.empty with valid := true, op := some 0b010#3, err := some 1#3 })

/-- R86: whatever stands in the last two bytes, `DECODE` ends the same way and gives the same fields but `CK`. -/
def Obligations.DecodeIgnoresTheChecksum : Prop :=
  ∀ (c : Cfg) (d : Bytes) (a b a' b' : Byte),
    { response c (.decode (d ++ [a, b])) with ck := none } =
      { response c (.decode (d ++ [a', b'])) with ck := none }

/-- R88, R89: `VERIFY` completes on every operand and from every state; under every configuration `MATCH` is the
comparison of the recomputed checksum with `CK`, and a mismatch is no error. -/
def Obligations.VerifyCompletes : Prop :=
  (∀ (dev : Byte) (opc pay : Bytes) (ck key : Word) (s : State),
    exec (.verify dev opc pay ck key) s =
      .next { rsp := response cfg (.verify dev opc pay ck key), run := none, inbox := s.inbox }) ∧
  ∀ (c : Cfg) (dev : Byte) (opc pay : Bytes) (ck key : Word),
    response c (.verify dev opc pay ck key) =
      { Response.empty with
        valid := true, op := some 0b011#3, err := some 0#3
        matched := some (decide (checksum c.checksum
          ([dev] ++ opc ++ pay ++ (enc16 c.keyOrder key).toBytes) = ck)) }

/-- R88: `VERIFY` depends on opcode and payload only through their concatenation, and not on `FRAME_TABLE`,
`CK_ORDER` or `BUF_MAX`. -/
def Obligations.VerifySeesOnlyTheConcatenation : Prop :=
  ∀ (c c' : Cfg) (dev : Byte) (opc pay opc' pay' : Bytes) (ck key : Word),
    c'.checksum = c.checksum → c'.keyOrder = c.keyOrder → opc ++ pay = opc' ++ pay' →
    response c (.verify dev opc pay ck key) = response c' (.verify dev opc' pay' ck key)

/-- R100, R102, R103: `RECOVER` completes on every operand and from every state; under every configuration there is
a strictly increasing list that holds exactly the keys that reproduce the observed checksum, and the response is that
list with its length and whether it has more than one entry, or, when it is empty, `NoCandidateFound` and nothing
else. -/
def Obligations.RecoverCompletes : Prop :=
  (∀ (dat : Bytes) (obs : BytePair) (s : State),
    exec (.recover dat obs) s = .next { rsp := response cfg (.recover dat obs), run := none, inbox := s.inbox }) ∧
  ∀ (c : Cfg) (dat : Bytes) (obs : BytePair),
    ∃ l : List Word,
      l.Pairwise (· < ·) ∧
      (∀ k : Word, k ∈ l ↔ checksum c.checksum (dat ++ (enc16 c.keyOrder k).toBytes) = dec16 c.ckOrder obs) ∧
      response c (.recover dat obs) =
        if l = [] then { Response.empty with valid := true, op := some 0b100#3, err := some 3#3 }
        else
          { Response.empty with
            valid := true, op := some 0b100#3, err := some 0#3, cand := some l
            cnt := some l.length, ambig := some (decide (1 < l.length)) }

/-! ### Laws of the framer (41_framer.md R90 to R95) -/

/-- R92: build then split. Under every legal configuration, `DECODE` of a frame `ENCODE` built gives the device id,
opcode and payload it was built from, and the checksum of the body and the key. -/
def Obligations.DecodeOfBuiltFrame : Prop :=
  ∀ (c : Cfg) (dev : Byte) (opc pay raw : Bytes) (key : Word),
    c.legal = true → (response c (.encode dev opc pay key)).raw = some raw →
    response c (.decode raw) =
      { Response.empty with
        valid := true, op := some 0b010#3, err := some 0#3, dev := some dev, opc := some opc, pay := some pay
        ck := some (checksum c.checksum ([dev] ++ opc ++ pay ++ (enc16 c.keyOrder key).toBytes)) }

/-- R91: build then verify. Under every legal configuration, the packet `DECODE` makes of a frame `ENCODE` built
verifies under the key it was built with. -/
def Obligations.BuiltFrameVerifies : Prop :=
  ∀ (c : Cfg) (dev : Byte) (opc pay raw : Bytes) (key : Word),
    c.legal = true → (response c (.encode dev opc pay key)).raw = some raw →
    ∃ v, verifyOfDecoded (response c (.decode raw)) key = some v ∧
      (response c v).err = some 0#3 ∧ (response c v).matched = some true

/-- R93: split then build. If `DECODE` succeeds on `raw`, `ENCODE` of its fields under any key succeeds, its frame
agrees with `raw` in every byte but possibly the last two, and it is `raw` exactly when the packet verifies under
that key. -/
def Obligations.RebuiltFrameIsTheFrameIffVerified : Prop :=
  ∀ (c : Cfg) (raw : Bytes) (key : Word) (dev : Byte) (opc pay : Bytes) (ck : Word),
    verifyOfDecoded (response c (.decode raw)) key = some (.verify dev opc pay ck key) →
    ∃ raw', (response c (.encode dev opc pay key)).err = some 0#3 ∧
      (response c (.encode dev opc pay key)).raw = some raw' ∧
      raw'.length = raw.length ∧ raw'.take (raw.length - 2) = raw.take (raw.length - 2) ∧
      (raw' = raw ↔ (response c (.verify dev opc pay ck key)).matched = some true)

/-- R62, R90: `VERIFY_RAW` on an idle block whose `DECODE` is admitted leaves the response of `VERIFY` on the decoded
fields where `DECODE` succeeds, and `DECODE`'s error response where it fails; its `MATCH` needs no table: it compares
the checksum of all but the last two bytes and the key with the value of the last two. Where the `DECODE` gets no
response the block stays as it was, the model's choice (log 19). -/
def Obligations.VerifyRawNeedsNoTable : Prop :=
  (∀ (c : Cfg) (d : Bytes) (a b : Byte) (key : Word),
    ((response c (.decode (d ++ [a, b]))).err = some 0#3 ↔
      (verifyOfDecoded (response c (.decode (d ++ [a, b]))) key).isSome) ∧
    ∀ v, verifyOfDecoded (response c (.decode (d ++ [a, b]))) key = some v →
      (response c v).matched =
        some (decide (checksum c.checksum (d ++ (enc16 c.keyOrder key).toBytes) = dec16 c.ckOrder ⟨a, b⟩))) ∧
  (∀ (c : Cfg) (raw : Bytes) (key : Word) (v : Instr),
    verifyOfDecoded (response c (.decode raw)) key = some v →
      ∃ dev opc pay ck, v = .verify dev opc pay ck key ∧
        response c (.decode raw) =
          { Response.empty with
            valid := true, op := some 0b010#3, err := some 0#3, dev := some dev, opc := some opc
            pay := some pay, ck := some ck }) ∧
  ∀ (raw : Bytes) (key : Word) (s : State),
    (s.run = none → admits cfg (.decode raw) = true →
      verifyRaw raw key s =
        .next { rsp := match verifyOfDecoded (response cfg (.decode raw)) key with
                  | some v => response cfg v
                  | none => response cfg (.decode raw)
                run := none, inbox := s.inbox }) ∧
    (s.run.isSome ∨ admits cfg (.decode raw) = false → verifyRaw raw key s = .next s)

/-- R82: the key reaches the last two bytes of a frame only. Two keys give frames of one length that agree in all
but the last two bytes, which are the checksum bytes, and whether `ENCODE` fails does not depend on the key. -/
def Obligations.KeyReachesOnlyTheChecksumBytes : Prop :=
  ∀ (c : Cfg) (dev : Byte) (opc pay : Bytes) (key key' : Word),
    (response c (.encode dev opc pay key)).err = (response c (.encode dev opc pay key')).err ∧
    ∀ raw raw', (response c (.encode dev opc pay key)).raw = some raw →
      (response c (.encode dev opc pay key')).raw = some raw' →
      raw.length = opc.length + pay.length + 3 ∧ raw'.length = raw.length ∧
      raw.take (raw.length - 2) = [dev] ++ opc ++ pay ∧ raw'.take (raw.length - 2) = [dev] ++ opc ++ pay

/-- R94: a wrong key can verify: some legal configuration and packet verify under two different keys. -/
def Obligations.WrongKeyCanVerify : Prop :=
  ∃ (c : Cfg) (dev : Byte) (opc pay : Bytes) (ck k k' : Word),
    c.legal = true ∧ k ≠ k' ∧ (response c (.verify dev opc pay ck k)).matched = some true ∧
      (response c (.verify dev opc pay ck k')).matched = some true

/-! ### Key recovery (42_key_recovery.md R102 to R107) -/

/-- R107: the true key is always among the candidates, whatever the checksum function. -/
def Obligations.TrueKeyIsACandidate : Prop :=
  ∀ (c : Cfg) (d : Bytes) (k : Word),
    ∃ l, (response c (.recover d (enc16 c.ckOrder
        (checksum c.checksum (d ++ (enc16 c.keyOrder k).toBytes))))).cand = some l ∧
      (response c (.recover d (enc16 c.ckOrder
        (checksum c.checksum (d ++ (enc16 c.keyOrder k).toBytes))))).err = some 0#3 ∧
      k ∈ l ∧ l.length ≤ 65536

/-- R102: `RECOVER` ends with `NoCandidateFound` exactly when no key reproduces the observed checksum, and the error
response carries no list. -/
def Obligations.NoCandidateExactlyWhenNoKeyMatches : Prop :=
  ∀ (c : Cfg) (dat : Bytes) (obs : BytePair),
    response c (.recover dat obs) = { Response.empty with valid := true, op := some 0b100#3, err := some 3#3 } ↔
      ∀ k : Word, checksum c.checksum (dat ++ (enc16 c.keyOrder k).toBytes) ≠ dec16 c.ckOrder obs

/-- R106: in the CRC family with `CK_POLY[0] = 1`, `RECOVER` returns exactly one candidate, whatever `DAT` and `OBS`
are. -/
def Obligations.OddCrcRecoversExactlyOneKey : Prop :=
  ∀ (c : Cfg) (p : CrcParams) (dat : Bytes) (obs : BytePair),
    c.checksum = .crc p → p.poly.getLsbD 0 = true →
    ∃ k : Word, response c (.recover dat obs) =
      { Response.empty with
        valid := true, op := some 0b100#3, err := some 0#3, cand := some [k], cnt := some 1, ambig := some false }

/-- R105: in the CRC family, and for the byte sum, packets built under one key give the same candidates whatever
their data. -/
def Obligations.CandidatesIndependentOfData : Prop :=
  ∀ (c : Cfg) (d d' : Bytes) (k : Word),
    ((∃ p, c.checksum = .crc p) ∨ c.checksum = .iterative sum16) →
    response c (.recover d (enc16 c.ckOrder (checksum c.checksum (d ++ (enc16 c.keyOrder k).toBytes)))) =
      response c (.recover d' (enc16 c.ckOrder (checksum c.checksum (d' ++ (enc16 c.keyOrder k).toBytes))))

/-- R105, R70: for the byte sum the candidates of a packet built under key `k` are the keys whose two bytes have the
same sum as those of `k`. -/
def Obligations.ByteSumCandidates : Prop :=
  ∀ (c : Cfg) (d : Bytes) (k : Word), c.checksum = .iterative sum16 →
    ∃ l, (response c (.recover d (enc16 c.ckOrder
        (checksum c.checksum (d ++ (enc16 c.keyOrder k).toBytes))))).cand = some l ∧
      ∀ k' : Word, k' ∈ l ↔ k'.toNat / 256 + k'.toNat % 256 = k.toNat / 256 + k.toNat % 256

/-- R60, R62: `RECOVER_PKT` of a packet of at least 2 bytes is `RECOVER` on all but its last two bytes with these as
`OBS`, whatever `FRAME_TABLE` lists; of a frame `ENCODE` built it searches the body and finds the key it was built
with. That a shorter packet makes no request is the model's choice (log 19). -/
def Obligations.RecoverPktFindsTheKey : Prop :=
  (∀ (d : Bytes) (a b : Byte), recoverPkt (d ++ [a, b]) = some (.recover d ⟨a, b⟩)) ∧
  (∀ full : Bytes, full.length < 2 → recoverPkt full = none) ∧
  ∀ (c : Cfg) (dev : Byte) (opc pay raw : Bytes) (key : Word),
    (response c (.encode dev opc pay key)).raw = some raw →
    ∃ (obs : BytePair) (l : List Word),
      recoverPkt raw = some (.recover ([dev] ++ opc ++ pay) obs) ∧
      (response c (.recover ([dev] ++ opc ++ pay) obs)).cand = some l ∧ key ∈ l

/-- R62, R104: with two observations made under one key, the intersection of the two candidate lists is increasing and
holds exactly the keys that reproduce both, the true key among them. -/
def Obligations.IntersectionKeepsTheTrueKey : Prop :=
  ∀ (c : Cfg) (d d' : Bytes) (k : Word) (l l' : List Word),
    (response c (.recover d (enc16 c.ckOrder
      (checksum c.checksum (d ++ (enc16 c.keyOrder k).toBytes))))).cand = some l →
    (response c (.recover d' (enc16 c.ckOrder
      (checksum c.checksum (d' ++ (enc16 c.keyOrder k).toBytes))))).cand = some l' →
    k ∈ intersect l l' ∧ (intersect l l').Pairwise (· < ·) ∧
      ∀ k' : Word, k' ∈ intersect l l' ↔
        checksum c.checksum (d ++ (enc16 c.keyOrder k').toBytes) =
            checksum c.checksum (d ++ (enc16 c.keyOrder k).toBytes) ∧
          checksum c.checksum (d' ++ (enc16 c.keyOrder k').toBytes) =
            checksum c.checksum (d' ++ (enc16 c.keyOrder k).toBytes)

/-! ### Errors, frames and state (10_state.md, 60_exceptions.md) -/

/-- R10: what an operation leaves is a function of the operation and of `CFG`: from any two states it leaves the same
response, idle. -/
def Obligations.NoOperationReadsEarlierState : Prop :=
  ∀ (i : Instr) (s s' : State),
    ∃ t t', exec i s = .next t ∧ exec i s' = .next t' ∧ t.rsp = t'.rsp ∧ t.run = none ∧ t'.run = none

/-- R24, R57: the frame of the five operations. The response field `f` holds a value after an operation exactly when
it is `VALID`, `OP` or `ERR`, or a result field of that operation and the operation ended with `ERR = 0`; the host's
events stay, and the block is idle, both the model's choice (log 1, 2). -/
def Obligations.OnlyItsResultFieldsHoldValues : Prop :=
  ∀ (i : Instr) (s t : State), exec i s = .next t →
    t.inbox = s.inbox ∧ t.run = none ∧ t.rsp.valid = true ∧ t.rsp.op = some (opCode i) ∧
    ∀ f, (t.rsp.get f).isSome ↔
      f ∈ [RspField.valid, .op, .err] ∨
      t.rsp.err = some 0#3 ∧
        f ∈ match i with
            | .cksum _ => [RspField.sum]
            | .encode _ _ _ _ => [.raw]
            | .decode _ => [.dev, .opc, .pay, .ck]
            | .verify _ _ _ _ _ => [.matched]
            | .recover _ _ => [.cand, .cnt, .ambig]

/-- R110, R115: an operation that ends with an error writes `VALID`, `OP` and `ERR` and no other field; the error is
`InvalidPayloadLength` of `ENCODE` or `DECODE` or `NoCandidateFound` of `RECOVER`, and no other code (R111). -/
def Obligations.ErrorResponseHoldsThreeFields : Prop :=
  ∀ (c : Cfg) (i : Instr), (response c i).err ≠ some 0#3 →
    ∃ e : BitVec 3,
      response c i = { Response.empty with valid := true, op := some (opCode i), err := some e } ∧
      (e = 1#3 ∧ (opCode i = 0b001#3 ∨ opCode i = 0b010#3) ∨ e = 3#3 ∧ opCode i = 0b100#3)

/-- R58, R114: a request with a reserved `OP`, issued to an idle block, waited for or not, completes at once with
`IllegalOp` and nothing else, whatever its other fields hold; and no operation ends with `IllegalOp`. That such a
request is admitted whatever length its unused fields have is the model's reading of R32 and R118 (log 9), and the two
ways of issuing a request are the model's (log 2). -/
def Obligations.ReservedOpIsIllegal : Prop :=
  (∀ (c : Cfg) (i : Instr), (response c i).err ≠ some 5#3) ∧
  ∀ (s : State) (r : Request) (rest : List HostEvent),
    s.run = none → 5 ≤ r.op.toNat → s.inbox = .request r :: rest ∨ s.inbox = .start r :: rest →
    step s =
      .next { rsp := { Response.empty with valid := true, op := some r.op, err := some 5#3 }
              run := none, inbox := rest }

/-- R23: after reset `VALID` is 0, no other response field holds a value and the block is idle. -/
def Obligations.ResetLeavesNoValue : Prop :=
  State.reset.rsp.valid = false ∧ State.reset.run = none ∧ ∀ f, f ≠ .valid → State.reset.rsp.get f = none

/-- R130: the reset event, at any moment, abandons an operation in progress without a response and leaves the latch
empty and the block idle. That the host's later events stay is the model's choice (log 13). -/
def Obligations.ResetAbandonsTheOperation : Prop :=
  ∀ (s : State) (rest : List HostEvent), s.inbox = .reset :: rest →
    ∃ t, step s = .next t ∧ t.rsp.valid = false ∧ t.run = none ∧ t.inbox = rest ∧
      ∀ f, f ≠ .valid → t.rsp.get f = none

/-! ### Steps (20_memory.md R32, R37, 70_reset_and_hazards.md R137, R146) -/

/-- A step on a request issued to an idle block runs the decoded operation, once the event is taken, if the request is
admitted, or starts it if the host does not wait; if the request is not admitted the block takes no step (R32): the
event is gone and the block is as it was. A step with no event, or whose host waits, is one beat of the sequencer. The
events and the beat are the model's (log 1, 2, 3, 12). -/
def Obligations.StepRunsTheDecodedOperation : Prop :=
  ∀ (s : State) (rest : List HostEvent),
    (∀ (r : Request) (i : Instr), s.run = none → decode r = .ok i →
      (s.inbox = .request r :: rest → step s =
        if admits cfg i = true then exec i { s with inbox := rest } else .next { s with inbox := rest }) ∧
      (s.inbox = .start r :: rest → step s =
        if admits cfg i = true then .next (startOp cfg i { s with inbox := rest })
        else .next { s with inbox := rest })) ∧
    (s.inbox = [] → step s = .next (beat cfg s)) ∧
    (s.inbox = .wait :: rest → step s = .next (beat cfg { s with inbox := rest }))

/-- R32, R14: a request is admitted exactly when every byte sequence of its format, the frame `ENCODE` would build and
the body of `VERIFY` have at most `BUF_MAX` bytes. Two points are the model's reading: that only the sequences of the
format count (log 8), and that R14's bound on `IDX` makes the body of `VERIFY` count (log 18). -/
def Obligations.AdmissionIsTheSizeRule : Prop :=
  ∀ (c : Cfg),
    (∀ dat, admits c (.cksum dat) = true ↔ ∀ n, c.bufMax = some n → dat.length ≤ n) ∧
    (∀ dev opc pay key, admits c (.encode dev opc pay key) = true ↔
      ∀ n, c.bufMax = some n → opc.length ≤ n ∧ pay.length ≤ n ∧ 1 + opc.length + pay.length + 2 ≤ n) ∧
    (∀ raw, admits c (.decode raw) = true ↔ ∀ n, c.bufMax = some n → raw.length ≤ n) ∧
    (∀ dev opc pay ck key, admits c (.verify dev opc pay ck key) = true ↔
      
      ∀ n, c.bufMax = some n → opc.length ≤ n ∧ pay.length ≤ n ∧ 1 + opc.length + pay.length ≤ n) ∧
    ∀ dat obs, admits c (.recover dat obs) = true ↔ ∀ n, c.bufMax = some n → dat.length ≤ n

/-- R137: a request presented while an operation runs, waited for or not, is not admitted, whatever it is: the running
operation and the response latch stay as they were (log 3). -/
def Obligations.BusyBlockAdmitsNothing : Prop :=
  ∀ (s : State) (running : Running) (r : Request) (rest : List HostEvent),
    s.run = some running → s.inbox = .request r :: rest ∨ s.inbox = .start r :: rest →
    step s = .next { rsp := s.rsp, run := some running, inbox := rest }

/-- R24, R36: a read of a response field that holds a value changes nothing but takes the event; a read of one that
holds none is the host program's fault (log 4). -/
def Obligations.ReadFaultsExactlyWithoutValue : Prop :=
  ∀ (s : State) (f : RspField) (rest : List HostEvent), s.inbox = .read f :: rest →
    ((s.rsp.get f).isSome → step s = .next { s with inbox := rest }) ∧
      (s.rsp.get f = none → step s = .fault (.noValue f))

/-- The only step that stops is a read of a field that holds no value; no step is refused (R24, R146; log 3, 4). -/
def Obligations.OnlySuchReadsStopTheMachine : Prop :=
  ∀ s : State,
    (∀ φ, step s = .fault φ ↔ ∃ f rest, φ = .noValue f ∧ s.inbox = .read f :: rest ∧ s.rsp.get f = none) ∧
      ∀ ρ, step s ≠ .refused ρ

/-- R143: in a legal state, a host that sees `VALID = 1` and `ERR = 0` reads any result field of the operation that
completed, one that sees `VALID = 1` reads `OP` and `ERR`, and any host reads `VALID`, without a fault. -/
def Obligations.DisciplinedReadsNeverFault : Prop :=
  ∀ (s : State) (f : RspField) (rest : List HostEvent), s.Inv cfg → s.inbox = .read f :: rest →
    f = .valid ∨
        s.rsp.valid = true ∧ (f = .op ∨ f = .err ∨
          s.rsp.err = some 0#3 ∧ ∃ op, s.rsp.op = some op ∧ f ∈ resultFields op) →
    step s = .next { s with inbox := rest }

/-- R127: an idle block with no event, or whose host waits, keeps its response latch and stays idle. -/
def Obligations.IdleBlockKeepsItsResponse : Prop :=
  ∀ s : State, s.run = none →
    (s.inbox = [] → step s = .next s) ∧
      ∀ rest, s.inbox = .wait :: rest → step s = .next { s with inbox := rest }

/-- R37: requests are answered in the order of their issue, each from its own operands alone. From any idle state, a
run over the admitted requests of `is` and then of `i` ends with the response of `i`, and the host's later events are
still to come. That one step is one operation is the model's choice (log 1, 2). -/
def Obligations.RequestsAreAnsweredInOrder : Prop :=
  ∀ (is : List Instr) (i : Instr) (s : State) (rest : List HostEvent),
    s.run = none → (∀ j ∈ is ++ [i], admits cfg j = true) →
    s.inbox = ((is ++ [i]).map fun j => HostEvent.request (encode j)) ++ rest →
    Host.Core.run Sys2Proof.core (is.length + 1) s = .next { rsp := response cfg i, run := none, inbox := rest }

/-- R38, R39, R66, R101, R146: the sequencer and the atomic operation agree. Under every configuration, an operation
started without waiting ends after exactly `workOf` beats with the response of the operation; before that the block
is busy and the response latch is the one before the start. The beat as the unit of work, its form at level A, and that
operations without an evaluation take none are the model's choices (log 6, 12). -/
def Obligations.SequencerRunIsTheOperation : Prop :=
  ∀ (c : Cfg) (i : Instr) (s : State),
    beats c (workOf c i) (startOp c i s) = { rsp := response c i, run := none, inbox := s.inbox } ∧
      ∀ m < workOf c i, (beats c m (startOp c i s)).run.isSome ∧ (beats c m (startOp c i s)).rsp = s.rsp

/-- R37, R39, R146: in steps of the machine, an admitted operation that the host starts on an idle block and then
leaves alone ends after its start and `workOf` beats with its response. The step and the beat are the model's (log 1,
2, 12). -/
def Obligations.StartedOperationEndsInSteps : Prop :=
  ∀ (i : Instr) (s : State), s.run = none → admits cfg i = true → s.inbox = [.start (encode i)] →
    Host.Core.run Sys2Proof.core (1 + workOf cfg i) s = .next { rsp := response cfg i, run := none, inbox := [] }

/-- R14, R15, R66, R101: a beat of a legal operation in progress keeps it legal and moves its position on, by one byte
or to the first byte of the next key's evaluation, or ends it with its response. The beat, and what a legal operation
in progress is beside the rules, are the model's choices (log 6, 7, 12). -/
def Obligations.BeatMovesOnOrCompletes : Prop :=
  ∀ (c : Cfg) (r : Running), r.wf c →
    (∃ r', r.beat c = .inl r' ∧ r'.wf c ∧ r'.op = r.op ∧
      (r'.idx = r.idx + 1 ∧ r'.k = r.k ∨ r'.idx = 0 ∧ r'.k.toNat = r.k.toNat + 1)) ∨
    r.beat c = .inr (response c r.op)

/-- R14, R76: in a legal state `IDX` and the length of the stream are at most `BUF_MAX + 2`, `K` is below 65,536, and
`RSP.CNT` and the candidates found so far are at most 65,536. That the body of `VERIFY` counts for admission is the
model's reading (log 18). -/
def Obligations.PositionsStayInBounds : Prop :=
  ∀ (c : Cfg) (s : State), s.Inv c →
    (∀ r, s.run = some r →
      (∀ n, c.bufMax = some n → (r.stream c).length ≤ n + 2 ∧ r.idx ≤ n + 2) ∧
      r.k.toNat < 65536 ∧ r.cand.length ≤ 65536) ∧
    ∀ m, s.rsp.cnt = some m → m ≤ 65536

/-- The invariant holds after reset. -/
def Obligations.LegalStateAtReset : Prop := State.reset.Inv cfg

/-- Every step keeps the invariant: the response latch holds only what R57 and R111 allow, with a strictly increasing
candidate list and its own count, and every buffer within `BUF_MAX`; an operation in progress was admitted, `IDX` is
inside its stream, `ACC`, at the levels that have it, is the accumulator after the first `IDX` bytes, and `K` and the
candidates found are those of the keys already tried. Three clauses are the model's choices: no accumulator at level A
(log 6), `K = 0` and no candidates in the other operations (log 7), and no operation in progress that evaluates nothing
(log 12); what was admitted follows its readings (log 8, 18). -/
def Obligations.EveryStepKeepsLegalStates : Prop :=
  ∀ s t : State, s.Inv cfg → step s = .next t → t.Inv cfg
end

