-- ==== Sys2Proof/Laws/Operands.lean ====
section
/-! SUPPORT. Lengths and shapes of the assembled operands, and what a frame splits into. -/

namespace Sys2Proof

/-- The key space has 65,536 keys (R4). -/
theorem Config.keySpace_eq : Config.keySpace = 65536 := by
  unfold Config.keySpace
  rfl

end Sys2Proof

namespace Sys2Proof.Machine

@[simp] theorem BytePair.length_toBytes (p : BytePair) : p.toBytes.length = 2 := rfl

@[simp] theorem length_body (dev : Byte) (opc pay : Bytes) :
    (body dev opc pay).length = opc.length + pay.length + 1 := by
  simp [body]

/-- `ckin` is the body and two key bytes (R46). -/
@[simp] theorem length_withKey (c : Cfg) (d : Bytes) (key : Word) : (withKey c d key).length = d.length + 2 := by
  simp [withKey]

/-- The frame has `N + M + 3` bytes (R45). -/
@[simp] theorem length_wireFrame (c : Cfg) (dev : Byte) (opc pay : Bytes) (ck : Word) :
    (wireFrame c dev opc pay ck).length = opc.length + pay.length + 3 := by
  simp [wireFrame]

@[simp] theorem memRead_nil (i n : Nat) : memRead [] i n = [] := by
  simp [memRead]

/-- A read inside the buffer returns as many bytes as it asks for (R30). -/
theorem length_memRead {b : Bytes} {i n : Nat} (h : i + n ≤ b.length) : (memRead b i n).length = n := by
  simp only [memRead, List.length_take, List.length_drop]; omega

/-- A read past a prefix reads what follows it. -/
theorem memRead_append (a b : Bytes) (n : Nat) : memRead (a ++ b) a.length n = b.take n := by
  simp [memRead]

/-- A read of a prefix. -/
theorem memRead_zero_append (a b : Bytes) : memRead (a ++ b) 0 a.length = a := by
  simp [memRead]

/-- A sequence shorter than 3 bytes is not a frame (R47). -/
theorem splitFrame_short {raw : Bytes} (h : raw.length < 3) : splitFrame raw = none := by
  simp [splitFrame, h]

/-- The three parts of a frame (R47). -/
theorem splitFrame_parts (dev : Byte) (rest : Bytes) (a b : Byte) :
    splitFrame ([dev] ++ rest ++ [a, b]) = some { dev := dev, rest := rest, ck := ⟨a, b⟩ } := by
  have hlen : ([dev] ++ rest ++ [a, b]).length = rest.length + 3 := by simp
  have hlast : memRead ([dev] ++ rest ++ [a, b]) (rest.length + 1) 2 = [a, b] := by
    have h := memRead_append ([dev] ++ rest) [a, b] 2
    simpa using h
  have hrest : memRead ([dev] ++ rest ++ [a, b]) 1 rest.length = rest := by simp [memRead]
  have hdev : memRead ([dev] ++ rest ++ [a, b]) 0 1 = [dev] := by simp [memRead]
  have h3 : ¬ rest.length + 3 < 3 := by omega
  have e2 : rest.length + 3 - 2 = rest.length + 1 := by omega
  have e3 : rest.length + 3 - 3 = rest.length := by omega
  simp only [splitFrame, hlen, h3, if_false, e2, e3, hlast, hrest, hdev]

/-- Every sequence of 3 bytes or more is a frame (R47). -/
theorem exists_frame_parts {raw : Bytes} (h : 3 ≤ raw.length) :
    ∃ dev rest a b, raw = [dev] ++ rest ++ [a, b] := by
  obtain ⟨dev, t, rfl⟩ := List.exists_cons_of_length_pos (l := raw) (by omega)
  have ht : t.reverse.length = t.length := List.length_reverse
  obtain ⟨b, u, hu⟩ := List.exists_cons_of_length_pos (l := t.reverse) (by simp at h; omega)
  obtain ⟨a, v, rfl⟩ := List.exists_cons_of_length_pos (l := u) (by simp at h; simp [hu] at ht; omega)
  refine ⟨dev, v.reverse, a, b, ?_⟩
  have : t = v.reverse ++ [a, b] := by
    rw [← List.reverse_reverse t, hu]; simp
  simp [this]

/-- What `match_rest` finds is an entry of the table that accounts for `rest` (R51). -/
theorem matchRest_some {table : List FrameEntry} {rest : Bytes} {e : FrameEntry}
    (h : matchRest table rest = some e) :
    e ∈ table ∧ e.restLen = rest.length ∧ rest.take e.opcode.length = e.opcode := by
  have hmem := List.mem_of_find?_eq_some h
  have hprop := List.find?_some h
  simp only [Bool.and_eq_true, beq_iff_eq, memRead, List.drop_zero] at hprop
  exact ⟨hmem, hprop.1, hprop.2⟩

/-- `match_fields` holds exactly when the table lists the opcode with that payload length (R51). -/
theorem matchFields_iff {table : List FrameEntry} {opc pay : Bytes} :
    matchFields table opc pay = true ↔ ∃ e ∈ table, e.opcode = opc ∧ e.payLen = pay.length := by
  simp [matchFields]

end Sys2Proof.Machine
end

