-- ==== Sys2Proof/Laws/State.lean ====
section
/-! SUPPORT. One lemma per field per update of the state and the response, so that no later proof unfolds a
record update. -/

namespace Sys2Proof.Machine

@[simp] theorem State.complete_rsp (s : State) (r : Response) : (s.complete r).rsp = r := rfl
@[simp] theorem State.complete_run (s : State) (r : Response) : (s.complete r).run = none := rfl
@[simp] theorem State.complete_inbox (s : State) (r : Response) : (s.complete r).inbox = s.inbox := rfl

@[simp] theorem State.raise_rsp (s : State) (op : BitVec 3) (e : ErrorName) :
    (s.raise op e).rsp = errorResponse op e := rfl
@[simp] theorem State.raise_run (s : State) (op : BitVec 3) (e : ErrorName) : (s.raise op e).run = none := rfl
@[simp] theorem State.raise_inbox (s : State) (op : BitVec 3) (e : ErrorName) :
    (s.raise op e).inbox = s.inbox := rfl

@[simp] theorem State.applyReset_rsp (s : State) : s.applyReset.rsp = Response.empty := rfl
@[simp] theorem State.applyReset_run (s : State) : s.applyReset.run = none := rfl
@[simp] theorem State.applyReset_inbox (s : State) : s.applyReset.inbox = s.inbox := rfl

@[simp] theorem State.reset_rsp : State.reset.rsp = Response.empty := rfl
@[simp] theorem State.reset_run : State.reset.run = none := rfl
@[simp] theorem State.reset_inbox : State.reset.inbox = [] := rfl

/-- Completing twice leaves the second response only (R12, R24). -/
@[simp] theorem State.complete_complete (s : State) (r r' : Response) :
    (s.complete r).complete r' = s.complete r' := rfl

@[simp] theorem bareResponse_valid (op err : BitVec 3) : (bareResponse op err).valid = true := rfl
@[simp] theorem bareResponse_op (op err : BitVec 3) : (bareResponse op err).op = some op := rfl
@[simp] theorem bareResponse_err (op err : BitVec 3) : (bareResponse op err).err = some err := rfl
@[simp] theorem bareResponse_sum (op err : BitVec 3) : (bareResponse op err).sum = none := rfl
@[simp] theorem bareResponse_raw (op err : BitVec 3) : (bareResponse op err).raw = none := rfl
@[simp] theorem bareResponse_dev (op err : BitVec 3) : (bareResponse op err).dev = none := rfl
@[simp] theorem bareResponse_opc (op err : BitVec 3) : (bareResponse op err).opc = none := rfl
@[simp] theorem bareResponse_pay (op err : BitVec 3) : (bareResponse op err).pay = none := rfl
@[simp] theorem bareResponse_ck (op err : BitVec 3) : (bareResponse op err).ck = none := rfl
@[simp] theorem bareResponse_matched (op err : BitVec 3) : (bareResponse op err).matched = none := rfl
@[simp] theorem bareResponse_cand (op err : BitVec 3) : (bareResponse op err).cand = none := rfl
@[simp] theorem bareResponse_cnt (op err : BitVec 3) : (bareResponse op err).cnt = none := rfl
@[simp] theorem bareResponse_ambig (op err : BitVec 3) : (bareResponse op err).ambig = none := rfl

/-- A success response is the bare one with `ERR = 0` (R57). -/
theorem okResponse_eq (op : BitVec 3) : okResponse op = bareResponse op 0#3 := rfl

/-- An error response is the bare one with the error's code (R115). -/
theorem errorResponse_eq (op : BitVec 3) (e : ErrorName) : errorResponse op e = bareResponse op e.code := rfl

end Sys2Proof.Machine
end

