-- ==== Sys2Proof/Laws/Ops.lean ====
section
/-! SUPPORT. What the shared operations guarantee: the machine's configuration is legal, and a checksum at level
B or C is the one pass of its generator. -/

namespace Sys2Proof.Machine

theorem settleCfg_legal (c : Cfg) : (settleCfg c).legal = true := by
  unfold settleCfg
  split
  · assumption
  · rfl

/-- A legal configuration is its own settled form: every legal one is a possible `CFG`. -/
theorem settleCfg_of_legal {c : Cfg} (h : c.legal = true) : settleCfg c = c := by
  simp [settleCfg, h]

/-- The machine's configuration is legal (R52). -/
theorem cfg_legal : cfg.legal = true := settleCfg_legal _

/-- A legal configuration has a well-formed table (R52). -/
theorem Cfg.legal_table {c : Cfg} (h : c.legal = true) : frameTableWf c.frameTable = true := by
  simp only [Cfg.legal, Bool.and_eq_true] at h
  exact h.1

/-- Nothing is too long for an empty sequence's buffer (R32). -/
@[simp] theorem Cfg.fits_zero (c : Cfg) : c.fits 0 = true := by
  unfold Cfg.fits
  split <;> simp

/-- What fits, fits when shorter (R32). -/
theorem Cfg.fits_mono {c : Cfg} {m n : Nat} (h : c.fits n = true) (hle : m ≤ n) : c.fits m = true := by
  unfold Cfg.fits at *
  split at h
  · rfl
  · simp only [decide_eq_true_eq] at *
    omega

/-- At level B and C the checksum is the generator's one pass (R66). -/
theorem checksum_of_generator {ck : Checksum} {g : Generator} (h : generatorOf ck = some g) (s : Bytes) :
    checksum ck s = evaluate g s := by
  cases ck <;> simp_all [generatorOf, checksum]

@[simp] theorem absorb_nil (g : Generator) (acc : Word) : absorb g acc [] = acc := rfl

@[simp] theorem absorb_cons (g : Generator) (acc : Word) (b : Byte) (s : Bytes) :
    absorb g acc (b :: s) = absorb g (g.step acc b) s := rfl

/-- One more byte absorbed is one more step (R66). -/
theorem absorb_take_succ {g : Generator} {acc : Word} {s : Bytes} {n : Nat} {b : Byte} (h : s[n]? = some b) :
    absorb g acc (s.take (n + 1)) = g.step (absorb g acc (s.take n)) b := by
  simp [absorb, List.take_add_one, h]

/-- Nothing absorbed: `ACC` holds `CK_INIT` (R66). -/
@[simp] theorem accAfter_nil (ck : Checksum) : accAfter ck [] = accInit ck := rfl

/-- One more byte absorbed is one more step (R66), at every level. -/
theorem accAfter_take_succ {ck : Checksum} {s : Bytes} {n : Nat} {b : Byte} (h : s[n]? = some b) :
    accAfter ck (s.take (n + 1)) = accStep ck (accAfter ck (s.take n)) b := by
  unfold accAfter accStep
  cases generatorOf ck with
  | none => rfl
  | some g => simp [absorb_take_succ h]

/-- An evaluation of the whole stream ends with its checksum (R65, R66), at every level. -/
@[simp] theorem accFin_accAfter (ck : Checksum) (s : Bytes) : accFin ck (accAfter ck s) s = checksum ck s := by
  unfold accAfter accFin
  cases h : generatorOf ck with
  | none => rfl
  | some g => exact (checksum_of_generator h s).symm

end Sys2Proof.Machine
end

