-- ==== Sys2Proof/Laws/Exec.lean ====
section
/-! SUPPORT. One lemma that says everything an operation can do, and one that says everything an event can. -/

namespace Sys2Proof.Machine

/-- Every operation completes, with the response R10 makes a function of the request and of `CFG` alone. -/
theorem exec_eq (i : Instr) (s : State) : exec i s = .next (s.complete (response cfg i)) := by
  cases i <;> rfl

/-- The port on an operation: the completed state if admitted, the block unchanged if not (R32). -/
theorem port_exec (a : Bool) (i : Instr) (s : State) :
    port a s (exec i s) = .next (if a then s.complete (response cfg i) else s) := by
  rw [exec_eq]
  rfl

/-- A request never faults and is never refused by name. -/
theorem hostRequest_next (r : Request) (s : State) : ∃ t, hostRequest r s = .next t := by
  unfold hostRequest
  split
  · exact ⟨_, rfl⟩
  · split
    · exact ⟨_, rfl⟩
    · exact ⟨_, port_exec _ _ _⟩

/-- What a request can do to the block: nothing, `IllegalOp`, or its operation. -/
theorem hostRequest_cases {r : Request} {s t : State} (h : hostRequest r s = .next t) :
    t = s ∨
    (s.run = none ∧ (∃ op, decode r = .error (.reservedOp op) ∧ t = s.raise op .illegalOp)) ∨
    (s.run = none ∧ ∃ i, decode r = .ok i ∧ admits cfg i = true ∧ t = s.complete (response cfg i)) := by
  unfold hostRequest at h
  split at h
  · exact .inl (by simpa using h.symm)
  · rename_i hrun
    split at h
    · rename_i op hdec
      exact .inr (.inl ⟨hrun, op, hdec, by simpa using h.symm⟩)
    · rename_i i hdec
      rw [port_exec] at h
      by_cases ha : admits cfg i = true
      · exact .inr (.inr ⟨hrun, i, hdec, ha, by simpa [ha] using h.symm⟩)
      · exact .inl (by simpa [ha] using h.symm)

/-- What a start can do to the block: nothing, `IllegalOp`, or the start of its operation. -/
theorem hostStart_cases (r : Request) (s : State) :
    hostStart r s = s ∨
    (s.run = none ∧ (∃ op, decode r = .error (.reservedOp op) ∧ hostStart r s = s.raise op .illegalOp)) ∨
    (s.run = none ∧ ∃ i, decode r = .ok i ∧ admits cfg i = true ∧ hostStart r s = startOp cfg i s) := by
  unfold hostStart
  split
  · exact .inl rfl
  · rename_i hrun
    split
    · rename_i op hdec
      exact .inr (.inl ⟨hrun, op, hdec, rfl⟩)
    · rename_i i hdec
      by_cases ha : admits cfg i = true
      · exact .inr (.inr ⟨hrun, i, hdec, ha, by simp [ha]⟩)
      · exact .inl (by simp [ha])

end Sys2Proof.Machine
end

