-- ==== Sys2Proof/Laws/PerInstr.lean ====
section
/-! SUPPORT. A fact about every operation as syntax, one lemma per constructor: its request carries the operation
code of 30_encoding.md R55, which is none of the reserved ones of R58. -/

namespace Sys2Proof.Laws.OpCode

/-- The encoded request's `OP` is the operation's code and is not reserved (R55, R58). -/
def Statement (i : Instr) : Prop := (encode i).op = opCode i ∧ (encode i).op.toNat < 5

theorem cksum (dat : Bytes) : Statement (.cksum dat) := ⟨rfl, by show (0#3).toNat < 5; decide⟩

theorem encode (dev : Byte) (opc pay : Bytes) (key : Word) : Statement (.encode dev opc pay key) :=
  ⟨rfl, by show (1#3).toNat < 5; decide⟩

theorem decode (raw : Bytes) : Statement (.decode raw) := ⟨rfl, by show (2#3).toNat < 5; decide⟩

theorem verify (dev : Byte) (opc pay : Bytes) (ck key : Word) : Statement (.verify dev opc pay ck key) :=
  ⟨rfl, by show (3#3).toNat < 5; decide⟩

theorem recover (dat : Bytes) (obs : BytePair) : Statement (.recover dat obs) := ⟨rfl, by show (4#3).toNat < 5; decide⟩

end Sys2Proof.Laws.OpCode
end

