-- ==== Sys2Proof/Laws/Sequencer.lean ====
section
/-! SUPPORT. What one beat of the sequencer can do. -/

namespace Sys2Proof.Machine

@[simp] theorem beat_idle (c : Cfg) {s : State} (h : s.run = none) : beat c s = s := by
  simp [beat, h]

/-- A beat never takes an event. -/
@[simp] theorem beat_inbox (c : Cfg) (s : State) : (beat c s).inbox = s.inbox := by
  unfold beat
  split
  · rfl
  · split <;> rfl

@[simp] theorem beats_zero (c : Cfg) (s : State) : beats c 0 s = s := rfl

theorem beats_succ (c : Cfg) (n : Nat) (s : State) : beats c (n + 1) s = beats c n (beat c s) := rfl

theorem beats_add (c : Cfg) (m n : Nat) (s : State) : beats c (m + n) s = beats c n (beats c m s) := by
  induction m generalizing s with
  | zero => simp
  | succ m ih => rw [Nat.succ_add, beats_succ, beats_succ, ih]

/-- An operation that evaluates a checksum is busy once started (R39). -/
theorem startOp_of_evaluates {c : Cfg} {i : Instr} (h : evaluates c i = true) (s : State) :
    startOp c i s = { s with run := some (Running.fresh c i) } := by
  simp [startOp, h]

/-- An operation that evaluates none completes as it is started (log 12). -/
theorem startOp_of_not_evaluates {c : Cfg} {i : Instr} (h : evaluates c i = false) (s : State) :
    startOp c i s = s.complete (response c i) := by
  simp [startOp, h]

/-- Starting an operation takes no event. -/
@[simp] theorem startOp_inbox (c : Cfg) (i : Instr) (s : State) : (startOp c i s).inbox = s.inbox := by
  unfold startOp
  split <;> rfl

/-- A beat inside the stream absorbs one byte (R14, R66). -/
theorem Running.beat_absorb {c : Cfg} {r : Running} {b : Byte} (h : (r.stream c)[r.idx]? = some b) :
    r.beat c = .inl { r with acc := accStep c.checksum r.acc b, idx := r.idx + 1 } := by
  simp [Running.beat, h]

/-- A beat at the end of the stream ends the evaluation (R14, R66). -/
theorem Running.beat_end {c : Cfg} {r : Running} (h : (r.stream c).length ≤ r.idx) :
    r.beat c = r.endEvaluation c (accFin c.checksum r.acc (r.stream c)) := by
  have : (r.stream c)[r.idx]? = none := List.getElem?_eq_none h
  simp [Running.beat, this]

/-- The response while an operation runs on is the one before it (R12, R38). -/
theorem beat_rsp_of_busy {c : Cfg} {s : State} (h : (beat c s).run.isSome) : (beat c s).rsp = s.rsp := by
  unfold beat at *
  split at h
  · rfl
  · split at h
    · simp [*]
    · simp at h

end Sys2Proof.Machine
end

