-- ==== Sys2Proof/Tests/Slice0.lean ====
section
/-! SUPPORT. Tests of the model's author. Expected values are 95_test_vectors.md's, or written out from the spec's
encodings; the section is named at each. The parameter sets are test data only (R71). -/

set_option maxRecDepth 100000

namespace Sys2Proof.Tests

open Sys2Proof.Machine

/-! ### The parameter sets of 95_test_vectors.md -/

/-- CRC-16/CCITT-FALSE (R71). -/
def refCrc : CrcParams := { poly := 0x1021, init := 0xFFFF, refIn := false, refOut := false, xorOut := 0x0000 }

/-- CRC-16/X-25 (section 1.2). -/
def x25 : CrcParams := { poly := 0x1021, init := 0xFFFF, refIn := true, refOut := true, xorOut := 0xFFFF }

/-- CRC-16/ARC (section 1.2). -/
def arc : CrcParams := { poly := 0x8005, init := 0x0000, refIn := true, refOut := true, xorOut := 0x0000 }

/-- `REF` with its single table entry (R53, R71). -/
def ref : Cfg :=
  { checksum := .crc refCrc, ckOrder := .msbFirst, keyOrder := .msbFirst,
    frameTable := frameTableRef, bufMax := none }

/-- `T3`: three entries. -/
def t3 : Cfg := { ref with frameTable := [⟨[0x87, 0x05], 5⟩, ⟨[0x87], 2⟩, ⟨[], 0⟩] }

/-- `EVEN`: an even polynomial. -/
def even : Cfg := { ref with checksum := .crc { refCrc with poly := 0x1022 } }

/-- `SUM`: the byte sum. -/
def sum : Cfg := { ref with checksum := .iterative sum16 }

/-- `REF` with a bounded buffer (section 2.10). -/
def bounded (n : Nat) : Cfg := { ref with bufMax := some n }

/-- A level A instance (R65): the checksum is the length of the sequence. -/
def lengthFn : Cfg := { ref with checksum := .function fun s => BitVec.ofNat 16 s.length }

/-- MM's data bytes (section 1.1). -/
def mmData : Bytes := [0x01, 0x87, 0x05, 0x03, 0x01, 0x9A, 0x00, 0x00]

/-- The catalogue check input (section 1.2). -/
def digits : Bytes := [0x31, 0x32, 0x33, 0x34, 0x35, 0x36, 0x37, 0x38, 0x39]

/-! ### WellFormed: each check refuses an ill-formed term (R52, R17, R32; sections 2.2, 2.10) -/

theorem test_table_t3_wf : frameTableWf t3.frameTable = true := by decide
theorem test_table_ref_wf : frameTableWf frameTableRef = true := by decide
theorem test_table_empty_wf : frameTableWf [] = true := by decide
theorem test_table_same_length_no_prefix_wf : frameTableWf [⟨[0x87], 6⟩, ⟨[0x88], 6⟩] = true := by decide
theorem test_table_prefix_refused : frameTableWf [⟨[0x87], 6⟩, ⟨[0x87, 0x05], 5⟩] = false := by decide
theorem test_table_empty_opcode_refused : frameTableWf [⟨[], 7⟩, ⟨[0x87, 0x05], 5⟩] = false := by decide
theorem test_table_two_lengths_refused : frameTableWf [⟨[0x87, 0x05], 5⟩, ⟨[0x87, 0x05], 4⟩] = false := by decide
theorem test_cfg_table_refused : ({ ref with frameTable := [⟨[], 1⟩, ⟨[7], 0⟩] } : Cfg).legal = false := by decide
theorem test_cfg_bound_refused : ({ ref with frameTable := [], bufMax := some 2 } : Cfg).legal = false := by decide
theorem test_cfg_entry_over_bound_refused : (bounded 9).legal = false := by decide
theorem test_cfg_legal : (bounded 10).legal = true := by decide
theorem test_cksum_too_long_refused : (Instr.cksum digits).wf (bounded 8) = false := by decide
theorem test_encode_frame_too_long_refused :
    (Instr.encode 1 [0x87, 0x05] [3, 1, 0x9A, 0, 0] 0).wf (bounded 9) = false := by decide
theorem test_encode_frame_fits : (Instr.encode 1 [0x87, 0x05] [3, 1, 0x9A, 0, 0] 0).wf (bounded 10) = true := by
  decide
theorem test_encode_opcode_too_long_refused : (Instr.encode 1 digits [] 0).wf (bounded 8) = false := by decide
theorem test_encode_payload_too_long_refused : (Instr.encode 1 [] digits 0).wf (bounded 8) = false := by decide
theorem test_decode_too_long_refused : (Instr.decode digits).wf (bounded 8) = false := by decide
theorem test_verify_opcode_too_long_refused : (Instr.verify 1 digits [] 0 0).wf (bounded 8) = false := by decide
theorem test_verify_payload_too_long_refused : (Instr.verify 1 [] digits 0 0).wf (bounded 8) = false := by decide
/-- R14: a body of at most `BUF_MAX` bytes. -/
theorem test_verify_body_too_long_refused :
    (Instr.verify 1 [1, 2, 3, 4] [1, 2, 3, 4] 0 0).wf (bounded 8) = false ∧
      (Instr.verify 1 [1, 2, 3, 4] [1, 2, 3] 0 0).wf (bounded 8) = true := by decide
theorem test_recover_too_long_refused : (Instr.recover digits ⟨0, 0⟩).wf (bounded 8) = false := by decide

/-! ### Decoding: the requests of the programs P1 to P3, their `OP` bits as the spec's tables write them -/

/-- Every field driven, so that a decoder that read a field outside the format would show. -/
def driven (op : BitVec 3) : Request :=
  { op := op, dev := 0x2A, opc := [0x87, 0x05], pay := [0x01, 0x01, 0x7C, 0x64, 0x00], key := 0xBEEF, ck := 0xC3DE,
    raw := [0x01, 0xD5], dat := digits, obs := ⟨0xD5, 0x28⟩ }

theorem test_decode_cksum : decode (driven 0b000#3) = .ok (.cksum digits) := by rfl
theorem test_decode_encode :
    decode (driven 0b001#3) = .ok (.encode 0x2A [0x87, 0x05] [0x01, 0x01, 0x7C, 0x64, 0x00] 0xBEEF) := by rfl
theorem test_decode_decode : decode (driven 0b010#3) = .ok (.decode [0x01, 0xD5]) := by rfl
theorem test_decode_verify :
    decode (driven 0b011#3) = .ok (.verify 0x2A [0x87, 0x05] [0x01, 0x01, 0x7C, 0x64, 0x00] 0xC3DE 0xBEEF) := by rfl
theorem test_decode_recover : decode (driven 0b100#3) = .ok (.recover digits ⟨0xD5, 0x28⟩) := by rfl
theorem test_decode_reserved : decode (driven 0b111#3) = .error (.reservedOp 0b111#3) := by rfl
theorem test_table_word_verify : decodeTableWord 8 3 = some (.verify 0 [] [] 0 0) := by decide
theorem test_table_word_reserved : decodeTableWord 8 5 = none := by decide

/-! ### Operand assembly and matching (sections 2.1, 2.2) -/

theorem test_enc16_msb : (enc16 .msbFirst 0xD528).toBytes = [0xD5, 0x28] := by decide
theorem test_enc16_lsb : (enc16 .lsbFirst 0x00FF).toBytes = [0xFF, 0x00] := by decide
theorem test_dec16_lsb : dec16 .lsbFirst ⟨0xD5, 0x28⟩ = 0x28D5 := by decide
theorem test_match_rest_by_length : matchRest t3.frameTable [0x87, 0x05, 0xAA] = some ⟨[0x87], 2⟩ := by decide
theorem test_match_rest_none : matchRest t3.frameTable [0x87, 0x05] = none := by decide
theorem test_match_fields_length : matchFields t3.frameTable [0x87] [0xAA] = false := by decide

/-! ### The generator (sections 1.2, 2.3, 2.4) -/

theorem test_reflect8 : reflect8 0x87 = 0xE1 := by decide
theorem test_reflect16 : reflect16 0x1021 = 0x8408 := by decide
theorem test_crcStep_ref : crcStep refCrc 0xFFFF 0x01 = 0xF1D1 := by decide
theorem test_crcStep_single_bit : crcStep refCrc 0x0000 0x01 = 0x1021 := by decide
theorem test_check_ref : checksum (.crc refCrc) digits = 0x29B1 := by decide
theorem test_check_x25 : checksum (.crc x25) digits = 0x906E := by decide
theorem test_check_arc : checksum (.crc arc) digits = 0xBB3D := by decide
theorem test_sum16 : checksum (.iterative sum16) mmData = 0x012B := by decide

/-! ### `CKSUM` (section 2.4) -/

theorem test_cksum_empty : (cksumResponse ref []).sum = some 0xFFFF := by decide
theorem test_cksum_mm_with_key : (cksumResponse ref (mmData ++ [0xF5, 0xEF])).sum = some 0xD528 := by decide

/-! ### `ENCODE` (section 2.5) -/

theorem test_encode_ref_lsb_key :
    (encodeResponse { ref with keyOrder := .lsbFirst } 0x2A [0x87, 0x05] [0x01, 0x01, 0x7C, 0x64, 0x00] 0xBEEF).raw =
      some [0x2A, 0x87, 0x05, 0x01, 0x01, 0x7C, 0x64, 0x00, 0xB4, 0x84] := by decide
theorem test_encode_boundary_moved :
    (encodeResponse ref 0x01 [0x87] [0x05, 0x03, 0x01, 0x9A, 0x00, 0x00] 0xF5EF) =
      { Response.empty with valid := true, op := some 1#3, err := some 1#3 } := by decide

/-! ### `DECODE` (section 2.6) -/

theorem test_decode_by_length :
    (decodeResponse t3 [0x01, 0x87, 0x05, 0xAA, 0xC1, 0xC2]) =
      { Response.empty with
        valid := true, op := some 2#3, err := some 0#3, dev := some 0x01, opc := some [0x87],
        pay := some [0x05, 0xAA], ck := some 0xC1C2 } := by decide
theorem test_decode_two_bytes : (decodeResponse t3 [0x01, 0xD5]).err = some 1#3 := by decide

/-! ### `VERIFY` (section 2.7) -/

theorem test_verify_even_collision :
    (verifyResponse even 0x01 [0x87, 0x05] [0x03, 0x01, 0x9A, 0x00, 0x00] 0xFB0A 0x9A25).matched = some true := by
  decide
theorem test_verify_wrong_key :
    (verifyResponse ref 0x2A [0x87, 0x05] [0x01, 0x01, 0x7C, 0x64, 0x00] 0xC3DE 0xBEEE).matched = some false := by
  decide

/-! ### `RECOVER` (section 2.8): the four keys of the `SUM` row are candidates, in order, and the first 800 keys
hold no other -/

theorem test_recover_sum_row :
    candidatesBelow sum [0x01, 0x87, 0x05] 0x0090 800 = [0x0003, 0x0102, 0x0201, 0x0300] := by decide
theorem test_recover_even_pair :
    isCandidate even mmData 0xFB0A 0x1234 = true ∧ isCandidate even mmData 0xFB0A 0x9A25 = true ∧
      isCandidate even mmData 0xFB0A 0x1235 = false := by decide

/-! ### Steps: each table row runs as the first operation after reset; reserved codes end with `IllegalOp`
(section 2.9); reset, reads and busy requests (section 2.10) -/

/-- The step answers a next state. -/
def goesOn (o : Host.Outcome State Fault Refusal) : Bool :=
  match o with
  | .next _ => true
  | .fault _ => false
  | .refused _ => false

/-- The response latch of the next state, if the step answers one. -/
def rspAfter (o : Host.Outcome State Fault Refusal) : Option Response :=
  match o with
  | .next t => some t.rsp
  | .fault _ => none
  | .refused _ => none

theorem test_step_runs_each_row :
    ∀ w ∈ [0, 1, 2, 3, 4], goesOn (step (State.reset.withFetchWord 8 w)) = true := by
  intro w hw
  simp only [List.mem_cons, List.not_mem_nil, or_false] at hw
  rcases hw with rfl | rfl | rfl | rfl | rfl <;> rfl

theorem test_step_reserved :
    rspAfter (step (State.reset.withFetchWord 8 7)) =
      some { Response.empty with valid := true, op := some 7#3, err := some 5#3 } := by rfl

/-- A busy block: `RECOVER` under way at `K = 40000`. -/
def busy : State :=
  { rsp := Response.empty
    run := some { op := .recover mmData ⟨0xD5, 0x28⟩, acc := some 0, idx := 3, k := 40000, cand := [] }
    inbox := [] }

theorem test_reset_during_recover :
    rspAfter (step { busy with inbox := [.reset] }) = some Response.empty := by rfl
theorem test_busy_request_not_admitted :
    rspAfter (step { busy with inbox := [.request (driven 0b000#3)] }) = some Response.empty := by rfl
theorem test_read_without_value :
    goesOn (step { State.reset with inbox := [.read .sum] }) = false := by rfl

/-! ### The sequencer against `ACC` traces (section 1.3) -/

theorem test_beats_trace :
    ((beats ref 5 (startOp ref (.cksum mmData) State.reset)).run.map fun r => (r.acc, r.idx)) =
      some (some 0x99CA, 5) := by decide
theorem test_beats_complete :
    (beats ref 9 (startOp ref (.cksum mmData) State.reset)).rsp.sum = some 0xA0CF := by decide

/-- Level A (R15, R101): `RECOVER` of one byte has tried key 0, a candidate, after one evaluation of three bytes. -/
theorem test_beats_levelA_counts_keys :
    ((beats lengthFn 4 (startOp lengthFn (.recover [0x01] ⟨0x00, 0x03⟩) State.reset)).run.map fun r =>
      (r.acc, r.idx, r.k, r.cand)) = some (none, 0, 1, [0x0000]) := by decide

/-! ### Pseudo-operations (R62) -/

theorem test_verify_raw_busy : verifyRaw (mmData ++ [0xD5, 0x28]) 0xF5EF busy = .next busy := by rfl
theorem test_verify_raw_no_frame :
    rspAfter (verifyRaw [] 0xF5EF State.reset) =
      some { Response.empty with valid := true, op := some 0b010#3, err := some 1#3 } := by
  have h : admits cfg (.decode []) = true := Cfg.fits_zero cfg
  simp only [verifyRaw, h]
  rfl

theorem test_recover_pkt :
    recoverPkt (mmData ++ [0xD5, 0x28]) = some (.recover mmData ⟨0xD5, 0x28⟩) := by decide
theorem test_intersect : intersect [0x1234, 0x9A25] [0x9A25] = [0x9A25] := by decide

end Sys2Proof.Tests
end

