-- ==== Sys2Proof/Tests/Witnesses.lean ====
section
/-! SUPPORT. For each statement of Sys2Proof/Certificates/Slice0/Obligations.lean with hypotheses, a concrete state and
operands that meet them together, one conjunct or theorem per clause, at the clause's boundary. -/

set_option maxRecDepth 100000

namespace Sys2Proof.Tests

open Sys2Proof.Machine

/-- The payload of MM's example (section 1.1). -/
def mmPay : Bytes := [0x03, 0x01, 0x9A, 0x00, 0x00]

/-- The frame of MM's example. -/
def mmFrame : Bytes := mmData ++ [0xD5, 0x28]

/-! ### Encoding, buffers and framing -/

theorem witness_DecoderIsTotalOnOp : (driven 0b100#3).op.toNat < 5 ∧ 5 ≤ (driven 0b101#3).op.toNat := by decide

theorem witness_FormatFieldsAloneAreDecoded :
    (driven 0b000#3).op = 0b000#3 ∧ (driven 0b001#3).op = 0b001#3 ∧ (driven 0b010#3).op = 0b010#3 ∧
      (driven 0b011#3).op = 0b011#3 ∧ (driven 0b100#3).op = 0b100#3 := by decide

theorem witness_BufferReadAfterWrite : 2 + ([0xAA, 0xBB] : Bytes).length ≤ ([1, 2, 3, 4] : Bytes).length := by decide

theorem witness_FrameSplitsIntoThreeParts :
    ([0x01, 0xD5] : Bytes).length < 3 ∧ 3 ≤ ([0x07, 0x12, 0x34] : Bytes).length := by decide

theorem witness_MatchRestFindsTheOneEntry :
    frameTableWf t3.frameTable = true ∧ ⟨[0x87], 2⟩ ∈ t3.frameTable ∧
      ([0x87] : Bytes).length + 2 = ([0x87, 0x05, 0xAA] : Bytes).length ∧
      ([0x87] : Bytes) <+: [0x87, 0x05, 0xAA] ∧ matchFields t3.frameTable [] [] = true := by decide

/-! ### The framer -/

theorem witness_EncodeBuildsTheFrame :
    FrameEntry.mk [0x87, 0x05] mmPay.length ∈ ref.frameTable ∧ FrameEntry.mk [] ([] : Bytes).length ∈ t3.frameTable := by
  decide

theorem witness_DecodeSplitsTheFrame :
    t3.legal = true ∧ ⟨[0x87], 2⟩ ∈ t3.frameTable ∧ ([0xAA, 0xBB] : Bytes).length = 2 ∧
      ⟨[], 0⟩ ∈ t3.frameTable ∧ ([] : Bytes).length = 0 := by decide

theorem witness_DecodeSucceedsExactlyOnFrames : (response t3 (.decode [0x01, 0x87, 0x05, 0xC1, 0xC2])).err ≠ some 0#3 := by
  decide

theorem witness_VerifySeesOnlyTheConcatenation :
    (t3.checksum = ref.checksum) ∧ t3.keyOrder = ref.keyOrder ∧
      ([0x87, 0x05] : Bytes) ++ mmPay = [0x87] ++ ([0x05] ++ mmPay) := ⟨rfl, rfl, by decide⟩

/-- Also the hypotheses of `BuiltFrameVerifies`, `RecoverPktFindsTheKey` and, with the next theorem, of
`KeyReachesOnlyTheChecksumBytes`. -/
theorem witness_DecodeOfBuiltFrame :
    ref.legal = true ∧ (response ref (.encode 0x01 [0x87, 0x05] mmPay 0xF5EF)).raw = some mmFrame := by decide

theorem witness_KeyReachesOnlyTheChecksumBytes :
    (response ref (.encode 0x01 [0x87, 0x05] mmPay 0x0000)).raw = some (mmData ++ [0x35, 0xDD]) := by decide

theorem witness_RebuiltFrameIsTheFrameIffVerified :
    verifyOfDecoded (response ref (.decode mmFrame)) 0xF5EF =
      some (.verify 0x01 [0x87, 0x05] mmPay 0xD528 0xF5EF) := by decide

theorem witness_VerifyRawNeedsNoTable :
    verifyOfDecoded (response ref (.decode (mmData ++ [0x12, 0x34]))) 0xF5EF =
      some (.verify 0x01 [0x87, 0x05] mmPay 0x1234 0xF5EF) := by decide

/-! ### Key recovery -/

theorem witness_RecoverPktFindsTheKey : ([0xD5] : Bytes).length < 2 := by decide

theorem witness_OddCrcRecoversExactlyOneKey : ref.checksum = .crc refCrc ∧ refCrc.poly.getLsbD 0 = true :=
  ⟨rfl, by decide⟩

theorem witness_CandidatesIndependentOfData :
    (∃ p, even.checksum = .crc p) ∧ sum.checksum = .iterative sum16 := ⟨⟨_, rfl⟩, rfl⟩

theorem witness_ByteSumCandidates : sum.checksum = .iterative sum16 := rfl

/-- Key `0x0102` reproduces the checksum bytes `00 90` of `[01 87 05]` (section 2.8), so `RECOVER` returns a list. -/
theorem witness_IntersectionKeepsTheTrueKey :
    ∃ l, (response sum (.recover [0x01, 0x87, 0x05] (enc16 .msbFirst
      (checksum sum.checksum ([0x01, 0x87, 0x05] ++ (enc16 .msbFirst 0x0102).toBytes))))).cand = some l := by
  have hkey : isCandidate sum [0x01, 0x87, 0x05] 0x0090 0x0102 = true := by decide
  have hobs : dec16 sum.ckOrder (enc16 .msbFirst
      (checksum sum.checksum ([0x01, 0x87, 0x05] ++ (enc16 .msbFirst 0x0102).toBytes))) = 0x0090 := by decide
  have hmem : (0x0102 : Word) ∈ candidatesBelow sum [0x01, 0x87, 0x05] 0x0090 Config.keySpace := by
    rw [candidatesBelow, List.mem_filter]
    refine ⟨List.mem_map.mpr ⟨0x0102, ?_, by decide⟩, hkey⟩
    rw [List.mem_range, Config.keySpace_eq]
    decide
  have hne : (candidatesBelow sum [0x01, 0x87, 0x05] 0x0090 Config.keySpace).isEmpty = false := by
    rw [List.isEmpty_eq_false_iff]
    exact List.ne_nil_of_mem hmem
  refine ⟨candidatesBelow sum [0x01, 0x87, 0x05] 0x0090 Config.keySpace, ?_⟩
  rw [response, recoverResponse, candidates, hobs, recoverResult, hne]
  rfl

/-! ### Errors, state and steps -/

theorem witness_OnlyItsResultFieldsHoldValues :
    exec (.cksum digits) State.reset = .next (State.reset.complete (cksumResponse cfg digits)) := rfl

theorem witness_ErrorResponseHoldsThreeFields : (response ref (.encode 0x01 [0x87] [] 0)).err ≠ some 0#3 := by decide

theorem witness_ReservedOpIsIllegal :
    State.reset.run = none ∧ 5 ≤ (driven 0b101#3).op.toNat ∧
      ({ State.reset with inbox := [.request (driven 0b101#3)] } : State).inbox = .request (driven 0b101#3) :: [] ∧
      ({ State.reset with inbox := [.start (driven 0b101#3)] } : State).inbox = .start (driven 0b101#3) :: [] := by
  decide

theorem witness_ResetAbandonsTheOperation :
    ({ busy with inbox := [.reset, .wait] } : State).inbox = .reset :: [.wait] := by decide

/-- The empty sequence is admitted whatever `BUF_MAX` is, so the admitted side of the step is met too. -/
theorem witness_StepRunsTheDecodedOperation :
    State.reset.run = none ∧
      (State.reset.withFetchWord 8 0).inbox = .request (requestOfTableWord 8 0) :: [] ∧
      decode (requestOfTableWord 8 0) = .ok (.cksum []) ∧ admits cfg (.cksum []) = true ∧
      ({ State.reset with inbox := [.start (requestOfTableWord 8 0)] } : State).inbox =
        .start (requestOfTableWord 8 0) :: [] ∧
      busy.inbox = [] ∧ ({ busy with inbox := [.wait] } : State).inbox = .wait :: [] :=
  ⟨rfl, rfl, rfl, Cfg.fits_zero cfg, rfl, rfl, rfl⟩

theorem witness_BusyBlockAdmitsNothing :
    busy.run.isSome ∧
      ({ busy with inbox := [.start (driven 0b000#3)] } : State).inbox = .start (driven 0b000#3) :: [] := by decide

theorem witness_ReadFaultsExactlyWithoutValue :
    (State.reset.rsp.get .valid).isSome ∧ State.reset.rsp.get .sum = none := by decide

/-- A state that holds the response of `CKSUM` on the empty sequence. -/
def afterCksum : State := State.reset.complete (cksumResponse cfg [])

theorem witness_DisciplinedReadsNeverFault :
    afterCksum.Inv cfg ∧ afterCksum.rsp.valid = true ∧ afterCksum.rsp.err = some 0#3 ∧
      ∃ op, afterCksum.rsp.op = some op ∧ RspField.sum ∈ resultFields op := by
  refine ⟨⟨.inr ⟨rfl, ⟨0#3, 0#3, rfl, rfl, by decide, fun f => by cases f <;> decide⟩, ?_, ?_⟩, ?_⟩, rfl, rfl,
    0#3, rfl, by decide⟩
  · intro l h
    exact absurd h (by simp [afterCksum, cksumResponse, cksumResult, okResponse])
  · constructor
    · intro b h
      exact absurd h (by simp [afterCksum, cksumResponse, cksumResult, okResponse])
    · intro b h
      exact absurd h (by simp [afterCksum, cksumResponse, cksumResult, okResponse])
  · intro r h
    exact absurd h (by simp [afterCksum])

theorem witness_IdleBlockKeepsItsResponse :
    State.reset.run = none ∧ State.reset.inbox = [] ∧
      ({ State.reset with inbox := [.wait] } : State).inbox = .wait :: [] := by decide

theorem witness_RequestsAreAnsweredInOrder :
    State.reset.run = none ∧ (∀ j ∈ [Instr.cksum []] ++ [Instr.cksum []], admits cfg j = true) ∧
      ({ State.reset with
          inbox := [.request (encode (.cksum [])), .request (encode (.cksum [])), .reset] } : State).inbox =
        (([Instr.cksum []] ++ [Instr.cksum []]).map fun j => HostEvent.request (encode j)) ++ [.reset] := by
  refine ⟨rfl, ?_, rfl⟩
  intro j hj
  have : j = .cksum [] := by simpa using hj
  rw [this]
  exact Cfg.fits_zero cfg

theorem witness_SequencerRunIsTheOperation : 0 < workOf ref (.cksum []) ∧ 8 < workOf ref (.cksum mmData) := by decide

/-- The invariant at reset, and a step from there. -/
theorem witness_EveryStepKeepsLegalStates :
    State.reset.Inv cfg ∧ step State.reset = .next State.reset := by
  refine ⟨⟨.inl ⟨rfl, rfl⟩, ?_⟩, rfl⟩
  intro r h
  exact absurd h (by simp)

/-- A busy state that meets the running half of the invariant: `CKSUM` of two bytes under `SUM`, one absorbed. -/
theorem witness_running_wf :
    Running.wf sum { op := .cksum [0x01, 0x87], acc := some 0x0001, idx := 1, k := 0, cand := [] } :=
  ⟨rfl, rfl, by decide, by decide, rfl, rfl⟩

/-- The hypotheses of `PositionsStayInBounds` and of the running half of `EveryStepKeepsLegalStates`: under a bound, a
busy state. The operation in progress is the one of `BeatMovesOnOrCompletes` too. -/
theorem witness_PositionsStayInBounds :
    ∃ r : Running, (bounded 10).bufMax = some 10 ∧
      ({ State.reset with run := some r } : State).Inv (bounded 10) ∧ r.idx = 0 := by
  refine ⟨Running.fresh (bounded 10) (.cksum digits), rfl, ⟨.inl ⟨rfl, rfl⟩, ?_⟩, rfl⟩
  intro r h
  obtain rfl : Running.fresh (bounded 10) (.cksum digits) = r := by simpa using h
  exact ⟨rfl, by decide, by decide, rfl, rfl, rfl⟩

/-- At level A an operation in progress has its positions and no accumulator. -/
theorem witness_running_wf_levelA :
    Running.wf lengthFn { op := .cksum [0x01, 0x87], acc := none, idx := 2, k := 0, cand := [] } :=
  ⟨rfl, rfl, by decide, rfl, rfl, rfl⟩

/-- The empty sequence is admitted whatever `BUF_MAX` is. -/
theorem witness_StartedOperationEndsInSteps :
    State.reset.run = none ∧ admits cfg (.cksum []) = true ∧
      ({ State.reset with inbox := [.start (encode (.cksum []))] } : State).inbox =
        [.start (encode (.cksum []))] := ⟨rfl, Cfg.fits_zero cfg, rfl⟩

/-- `VERIFY_RAW`: the empty sequence is admitted to an idle block, and a busy block is the other case. -/
theorem witness_VerifyRaw_steps :
    State.reset.run = none ∧ admits cfg (.decode []) = true ∧ busy.run.isSome := ⟨rfl, Cfg.fits_zero cfg, rfl⟩

end Sys2Proof.Tests
end

section
/-! PROOFS. The buffer primitives (R6): what a read and an indexed access see after a write in bounds. -/

namespace Sys2Proof.Machine

/-- R6, R31: the bytes written are the bytes read at the same position. -/
theorem memRead_memWrite_same {b v : Bytes} {i : Nat} (h : i ≤ b.length) :
    memRead (memWrite b i v) i v.length = v := by
  have hi : (b.take i).length = i := List.length_take_of_le h
  calc memRead (memWrite b i v) i v.length
      = memRead (b.take i ++ (v ++ b.drop (i + v.length))) (b.take i).length v.length := by
        rw [hi, memWrite, List.append_assoc]
    _ = (v ++ b.drop (i + v.length)).take v.length := memRead_append _ _ _
    _ = v := List.take_left

theorem length_memWrite {b v : Bytes} {i : Nat} (h : i + v.length ≤ b.length) :
    (memWrite b i v).length = b.length := by
  simp only [memWrite, List.length_append, List.length_take, List.length_drop]
  omega

theorem getElem?_memWrite_of_lt {b v : Bytes} {i j : Nat} (h : i ≤ b.length) (hj : j < i) :
    (memWrite b i v)[j]? = b[j]? := by
  have hlt : j < (b.take i).length := by rwa [List.length_take_of_le h]
  rw [memWrite, List.append_assoc, List.getElem?_append_left hlt, List.getElem?_take_of_lt hj]

theorem getElem?_memWrite_of_le {b v : Bytes} {i j : Nat} (h : i ≤ b.length) (hj : i + v.length ≤ j) :
    (memWrite b i v)[j]? = b[j]? := by
  have hlen : (b.take i ++ v).length = i + v.length := by
    rw [List.length_append, List.length_take_of_le h]
  rw [memWrite, List.getElem?_append_right (hlen ▸ hj), hlen, List.getElem?_drop, Nat.add_sub_cancel' hj]

/-- Settles O6: the read-back rule, the length, and the frame on either side of the write. -/
theorem bufferReadAfterWrite : Obligations.BufferReadAfterWrite := by
  intro b v i h
  have hi : i ≤ b.length := by omega
  refine ⟨memRead_memWrite_same hi, length_memWrite h, ?_⟩
  rintro j (hbefore | hafter)
  · exact getElem?_memWrite_of_lt hi hbefore
  · exact getElem?_memWrite_of_le hi hafter

end Sys2Proof.Machine
end

section
/-! PROOFS. The response latch: which fields each operation's response holds (R24, R57), and that a response to an
admitted request is legal (R32, R100, R111). -/

namespace Sys2Proof.Machine

/-! ### The key space and the candidate lists -/

/-- R101: after one more key the list holds that key too, if it is a candidate. -/
theorem candidatesBelow_succ (c : Cfg) (dat : Bytes) (target : Word) (n : Nat) :
    candidatesBelow c dat target (n + 1) =
      if isCandidate c dat target (BitVec.ofNat 16 n)
      then candidatesBelow c dat target n ++ [BitVec.ofNat 16 n] else candidatesBelow c dat target n := by
  simp only [candidatesBelow, List.range_succ, List.map_append, List.filter_append, List.map_singleton,
    List.filter_singleton]
  cases isCandidate c dat target (BitVec.ofNat 16 n) <;> simp

theorem length_candidatesBelow_le (c : Cfg) (dat : Bytes) (target : Word) (n : Nat) :
    (candidatesBelow c dat target n).length ≤ n := by
  simpa only [candidatesBelow, List.length_map, List.length_range] using
    List.length_filter_le (isCandidate c dat target) ((List.range n).map (BitVec.ofNat 16))

/-- R100, R108: keys are tried in increasing order, so the list found is increasing. -/
theorem candidatesBelow_pairwise (c : Cfg) (dat : Bytes) (target : Word) {n : Nat} (hn : n ≤ Config.keySpace) :
    (candidatesBelow c dat target n).Pairwise (· < ·) := by
  rw [Config.keySpace_eq] at hn
  refine List.Pairwise.filter _ (List.pairwise_map.mpr (List.Pairwise.imp_of_mem ?_ List.pairwise_lt_range))
  intro a b ha hb hab
  rw [List.mem_range] at ha hb
  rw [BitVec.lt_def, BitVec.toNat_ofNat, BitVec.toNat_ofNat]
  omega

/-- R76: an increasing list of 16-bit keys has at most 65,536 of them. -/
theorem length_le_of_pairwise_lt {l : List Word} (h : l.Pairwise (· < ·)) : l.length ≤ 65536 := by
  have hnodup : l.Nodup := h.imp BitVec.ne_of_lt
  have hcard : Fintype.card Word = 65536 := (Fintype.card_congr BitVec.equivFin.toEquiv).trans (Fintype.card_fin _)
  exact hcard ▸ hnodup.length_le_card

/-! ### Which fields a response holds (R24, R57) -/

/-- The response of one operation of code `op` that ended with `err`: `VALID`, `OP`, an `ERR` that R57 allows, and
values in the fields R57 gives it. -/
def Response.writtenBy (r : Response) (op err : BitVec 3) : Prop :=
  r.valid = true ∧ r.op = some op ∧ r.err = some err ∧ err ∈ errorCodes op ∧ r.shapedAs op err

theorem ErrorName.code_ne_zero (e : ErrorName) : e.code ≠ 0#3 := by cases e <;> decide

/-- R115: an error response holds `VALID`, `OP` and `ERR` only. -/
theorem errorResponse_writtenBy {op : BitVec 3} {e : ErrorName} (h : e.code ∈ errorCodes op) :
    (errorResponse op e).writtenBy op e.code := by
  refine ⟨rfl, rfl, rfl, h, fun f => ?_⟩
  rw [errorResponse_eq]
  cases f <;> simp [Response.holds, Response.get, e.code_ne_zero]

/-- A success is written by its operation once its values stand in the fields R57 names and in no other. -/
theorem writtenBy_of_holds_eq {r : Response} {op : BitVec 3} (hvalid : r.valid = true) (hop : r.op = some op)
    (herr : r.err = some 0#3) (hcode : 0#3 ∈ errorCodes op)
    (hholds : ∀ f, r.holds f = decide (f ∈ [RspField.valid, .op, .err] ++ resultFields op)) :
    r.writtenBy op 0#3 := by
  refine ⟨hvalid, hop, herr, hcode, fun f => ?_⟩
  rw [hholds, decide_eq_true_iff, List.mem_append, eq_self, true_and]

theorem cksumResult_writtenBy (sum : Word) : (cksumResult sum).writtenBy 0b000#3 0#3 :=
  writtenBy_of_holds_eq rfl rfl rfl (by decide) fun f => by cases f <;> rfl

theorem encodeResult_writtenBy (c : Cfg) (dev : Byte) (opc pay : Bytes) (ck : Word) :
    (encodeResult c dev opc pay ck).writtenBy 0b001#3 0#3 :=
  writtenBy_of_holds_eq rfl rfl rfl (by decide) fun f => by cases f <;> rfl

theorem decodeResult_writtenBy (c : Cfg) (f : FrameParts) (e : FrameEntry) :
    (decodeResult c f e).writtenBy 0b010#3 0#3 :=
  writtenBy_of_holds_eq rfl rfl rfl (by decide) fun f => by cases f <;> rfl

theorem verifyResult_writtenBy (recomputed ck : Word) : (verifyResult recomputed ck).writtenBy 0b011#3 0#3 :=
  writtenBy_of_holds_eq rfl rfl rfl (by decide) fun f => by cases f <;> rfl

theorem recoverResult_nil : recoverResult [] = errorResponse 0b100#3 .noCandidateFound := rfl

theorem recoverResult_of_ne_nil {l : List Word} (h : l ≠ []) :
    recoverResult l =
      { okResponse 0b100#3 with cand := some l, cnt := some l.length, ambig := some (ambigFlag l) } := by
  simp [recoverResult, h]

/-- R85: `DECODE` ends with `InvalidPayloadLength` unless the table divides the frame. -/
theorem decodeResponse_cases (c : Cfg) (raw : Bytes) :
    decodeResponse c raw = errorResponse 0b010#3 .invalidPayloadLength ∨
      ∃ f e, splitFrame raw = some f ∧ matchRest c.frameTable f.rest = some e ∧
        decodeResponse c raw = decodeResult c f e := by
  unfold decodeResponse
  cases hs : splitFrame raw with
  | none => exact .inl rfl
  | some f =>
    cases hm : matchRest c.frameTable f.rest with
    | none => exact .inl (by simp [hm])
    | some e => exact .inr ⟨f, e, rfl, hm, by simp [hm]⟩

theorem recoverResult_writtenBy (l : List Word) : ∃ err, (recoverResult l).writtenBy 0b100#3 err := by
  by_cases h : l = []
  · rw [h, recoverResult_nil]
    exact ⟨_, errorResponse_writtenBy (by decide)⟩
  · rw [recoverResult_of_ne_nil h]
    exact ⟨0#3, writtenBy_of_holds_eq rfl rfl rfl (by decide) fun f => by cases f <;> rfl⟩

/-- R57: every operation's response has the shape of its code and of the error it ended with. -/
theorem response_writtenBy (c : Cfg) (i : Instr) : ∃ err, (response c i).writtenBy (opCode i) err := by
  cases i with
  | cksum dat => exact ⟨_, cksumResult_writtenBy _⟩
  | encode dev opc pay key =>
    show ∃ err, (encodeResponse c dev opc pay key).writtenBy 0b001#3 err
    unfold encodeResponse
    split
    · exact ⟨_, encodeResult_writtenBy ..⟩
    · exact ⟨_, errorResponse_writtenBy (by decide)⟩
  | decode raw =>
    show ∃ err, (decodeResponse c raw).writtenBy 0b010#3 err
    obtain h | ⟨f, e, -, -, h⟩ := decodeResponse_cases c raw
    · exact ⟨_, h ▸ errorResponse_writtenBy (by decide)⟩
    · exact ⟨_, h ▸ decodeResult_writtenBy c f e⟩
  | verify dev opc pay ck key => exact ⟨_, verifyResult_writtenBy ..⟩
  | recover dat obs => exact recoverResult_writtenBy _

/-! ### The candidate fields and the buffers of a response -/

theorem Response.candidatesAgree_of_none {r : Response} (h : r.cand = none) : r.candidatesAgree := by
  simp [Response.candidatesAgree, h]

theorem recoverResult_candidatesAgree {l : List Word} (hl : l.Pairwise (· < ·)) :
    (recoverResult l).candidatesAgree := by
  by_cases h : l = []
  · exact Response.candidatesAgree_of_none (by rw [h]; rfl)
  · rw [recoverResult_of_ne_nil h]
    rintro _ ⟨⟩
    exact ⟨hl, h, rfl, rfl⟩

/-- R100: the candidate fields of a response agree; only `RECOVER` has any. -/
theorem response_candidatesAgree (c : Cfg) (i : Instr) : (response c i).candidatesAgree := by
  cases i with
  | cksum dat => exact Response.candidatesAgree_of_none rfl
  | encode dev opc pay key =>
    refine Response.candidatesAgree_of_none ?_
    show (encodeResponse c dev opc pay key).cand = none
    unfold encodeResponse
    split <;> rfl
  | decode raw =>
    refine Response.candidatesAgree_of_none ?_
    show (decodeResponse c raw).cand = none
    obtain h | ⟨f, e, -, -, h⟩ := decodeResponse_cases c raw <;> rw [h] <;> rfl
  | verify dev opc pay ck key => exact Response.candidatesAgree_of_none rfl
  | recover dat obs => exact recoverResult_candidatesAgree (candidatesBelow_pairwise c dat _ le_rfl)

theorem Response.buffersFit_of_none {c : Cfg} {r : Response} (hraw : r.raw = none) (hopc : r.opc = none)
    (hpay : r.pay = none) : r.buffersFit c := by
  simp [Response.buffersFit, hraw, hopc, hpay]

theorem errorResponse_buffersFit (c : Cfg) (op : BitVec 3) (e : ErrorName) : (errorResponse op e).buffersFit c :=
  Response.buffersFit_of_none rfl rfl rfl

/-- R32, R80: the frame `ENCODE` builds fits, since admission counts its bytes. -/
theorem encodeResult_buffersFit {c : Cfg} {opc pay : Bytes} (h : c.fits (opc.length + pay.length + 3) = true)
    (dev : Byte) (ck : Word) : (encodeResult c dev opc pay ck).buffersFit c := by
  constructor
  · rintro _ ⟨⟩
    simp
  · rintro _ (⟨⟨⟩⟩ | hopc | hpay)
    · simpa using h
    · cases hopc
    · cases hpay

/-- The undivided rest of a frame is no longer than the frame (R47). -/
theorem length_rest_le_of_splitFrame {raw : Bytes} {f : FrameParts} (h : splitFrame raw = some f) :
    f.rest.length ≤ raw.length := by
  have h3 : 3 ≤ raw.length := by
    by_contra hlt
    rw [splitFrame_short (by omega)] at h
    cases h
  obtain ⟨dev, rest, a, b, rfl⟩ := exists_frame_parts h3
  rw [splitFrame_parts] at h
  cases h
  simp only [List.length_append]
  omega

theorem length_memRead_le (b : Bytes) (i n : Nat) : (memRead b i n).length ≤ b.length := by
  simp only [memRead, List.length_take, List.length_drop]
  omega

/-- R32: the opcode and the payload `DECODE` finds are parts of the admitted frame. -/
theorem decodeResult_buffersFit {c : Cfg} {f : FrameParts} (h : c.fits f.rest.length = true) (e : FrameEntry) :
    (decodeResult c f e).buffersFit c := by
  constructor
  · rintro _ ⟨⟩
  · rintro _ (hraw | ⟨⟨⟩⟩ | ⟨⟨⟩⟩)
    · cases hraw
    · exact Cfg.fits_mono h (length_memRead_le ..)
    · exact Cfg.fits_mono h (length_memRead_le ..)

/-- R32: every buffer of the response to an admitted request fits. -/
theorem response_buffersFit {c : Cfg} {i : Instr} (h : admits c i = true) : (response c i).buffersFit c := by
  cases i with
  | cksum dat => exact Response.buffersFit_of_none rfl rfl rfl
  | encode dev opc pay key =>
    show (encodeResponse c dev opc pay key).buffersFit c
    simp only [admits, Instr.wf, Bool.and_eq_true] at h
    obtain ⟨-, hframe⟩ := h
    unfold encodeResponse
    split
    · exact encodeResult_buffersFit (Cfg.fits_mono hframe (by omega)) _ _
    · exact errorResponse_buffersFit ..
  | decode raw =>
    show (decodeResponse c raw).buffersFit c
    obtain hr | ⟨f, e, hf, -, hr⟩ := decodeResponse_cases c raw <;> rw [hr]
    · exact errorResponse_buffersFit ..
    · exact decodeResult_buffersFit (Cfg.fits_mono h (length_rest_le_of_splitFrame hf)) e
  | verify dev opc pay ck key => exact Response.buffersFit_of_none rfl rfl rfl
  | recover dat obs =>
    show (recoverResult _).buffersFit c
    unfold recoverResult
    split
    · exact errorResponse_buffersFit ..
    · exact Response.buffersFit_of_none rfl rfl rfl

/-! ### Legal responses (R12, R57, R111) -/

theorem Response.empty_wf (c : Cfg) : Response.empty.wf c := .inl ⟨rfl, rfl⟩

theorem Response.writtenBy.wf {c : Cfg} {r : Response} {op err : BitVec 3} (h : r.writtenBy op err)
    (hcand : r.candidatesAgree) (hbuf : r.buffersFit c) : r.wf c := by
  obtain ⟨hvalid, hop, herr, hcode, hshape⟩ := h
  exact .inr ⟨hvalid, ⟨op, err, hop, herr, hcode, hshape⟩, hcand, hbuf⟩

theorem response_wf {c : Cfg} {i : Instr} (h : admits c i = true) : (response c i).wf c := by
  obtain ⟨err, hw⟩ := response_writtenBy c i
  exact hw.wf (response_candidatesAgree c i) (response_buffersFit h)

theorem errorCodes_reserved : ∀ op : BitVec 3, 5 ≤ op.toNat → errorCodes op = [5#3] := by decide

/-- R58, R114: the `IllegalOp` response of a reserved code is legal. -/
theorem illegalOp_wf (c : Cfg) {op : BitVec 3} (h : 5 ≤ op.toNat) : (errorResponse op .illegalOp).wf c := by
  have hcode : ErrorName.illegalOp.code ∈ errorCodes op := by rw [errorCodes_reserved op h]; decide
  exact (errorResponse_writtenBy hcode).wf (Response.candidatesAgree_of_none rfl) (errorResponse_buffersFit ..)

/-- Only `RECOVER` has a count, and its candidate list comes with it (R57). -/
theorem cand_mem_of_cnt_mem :
    ∀ op : BitVec 3, RspField.cnt ∈ resultFields op → RspField.cand ∈ resultFields op := by decide

/-- R76: the count of a legal response is that of an increasing list of keys. -/
theorem Response.wf.cnt_le {c : Cfg} {r : Response} (h : r.wf c) {m : Nat} (hm : r.cnt = some m) : m ≤ 65536 := by
  obtain ⟨-, rfl⟩ | ⟨-, ⟨op, err, -, -, -, hshape⟩, hcand, -⟩ := h
  · cases hm
  · have hcnt : r.holds .cnt = true := by simp [Response.holds, Response.get, hm]
    have hlist : r.holds .cand = true := by
      obtain hfix | ⟨herr, hres⟩ := (hshape .cnt).mp hcnt
      · simp at hfix
      · exact (hshape .cand).mpr (.inr ⟨herr, cand_mem_of_cnt_mem op hres⟩)
    obtain ⟨l, hl⟩ : ∃ l, r.cand = some l := by
      simpa [Response.holds, Response.get, Option.isSome_iff_exists] using hlist
    obtain ⟨hsorted, -, hlen, -⟩ := hcand l hl
    obtain rfl : l.length = m := by simpa [hlen] using hm
    exact length_le_of_pairwise_lt hsorted

/-! ### What an operation leaves -/

/-- Settles O41: `response_writtenBy` for the five operations, whose result fields are those of their codes. -/
theorem onlyItsResultFieldsHoldValues : Obligations.OnlyItsResultFieldsHoldValues := by
  intro i s t ht
  obtain rfl : s.complete (response cfg i) = t := by simpa [exec_eq] using ht
  obtain ⟨err, hvalid, hop, herr, -, hshape⟩ := response_writtenBy cfg i
  refine ⟨rfl, rfl, hvalid, hop, fun f => ?_⟩
  rw [State.complete_rsp, herr, Option.some_inj]
  cases i <;> exact hshape f

/-- Settles O40: the response is `response cfg i`, in which the state does not occur. -/
theorem noOperationReadsEarlierState : Obligations.NoOperationReadsEarlierState := fun i s s' =>
  ⟨_, _, exec_eq i s, exec_eq i s', rfl, rfl, rfl⟩

end Sys2Proof.Machine
end

section
/-! PROOFS. The operation in progress: a beat keeps it legal and moves it on, or ends it with its response (R14, R15,
R66, R101), and where its positions can stand (R14, R76). -/

namespace Sys2Proof.Machine

/-- R15: the key tried at count `K` is `K` itself as a 16-bit value. -/
theorem candidateKey_eq_ofNat (k : BitVec 17) : candidateKey k = BitVec.ofNat 16 k.toNat := by
  simp [candidateKey, BitVec.extractLsb']

theorem Running.keysTried_recover {c : Cfg} {r : Running} {dat : Bytes} {obs : BytePair}
    (h : r.op = .recover dat obs) :
    r.keysTried c ↔
      r.k.toNat < Config.keySpace ∧ r.cand = candidatesBelow c dat (dec16 c.ckOrder obs) r.k.toNat := by
  simp only [Running.keysTried, h]

theorem Running.stream_recover {c : Cfg} {r : Running} {dat : Bytes} {obs : BytePair} (h : r.op = .recover dat obs) :
    r.stream c = withKey c dat (BitVec.ofNat 16 r.k.toNat) := by
  simp only [Running.stream, h, candidateKey_eq_ofNat]

/-- R13 to R15, R39: an admitted operation is legal as it is started. -/
theorem Running.fresh_wf {c : Cfg} {i : Instr} (heval : evaluates c i = true) (hadm : admits c i = true) :
    (Running.fresh c i).wf c := by
  refine ⟨heval, hadm, Nat.zero_le _, rfl, ?_⟩
  cases i with
  | recover dat obs =>
    refine (Running.keysTried_recover rfl).mpr ⟨?_, rfl⟩
    show (0#17).toNat < Config.keySpace
    rw [Config.keySpace_eq]
    decide
  | cksum dat => exact ⟨rfl, rfl⟩
  | encode dev opc pay key => exact ⟨rfl, rfl⟩
  | decode raw => exact ⟨rfl, rfl⟩
  | verify dev opc pay ck key => exact ⟨rfl, rfl⟩

/-- R14, R66: one byte absorbed keeps an operation in progress legal. -/
theorem Running.wf.absorb {c : Cfg} {r : Running} {b : Byte} (h : r.wf c) (hb : (r.stream c)[r.idx]? = some b) :
    ({ r with acc := accStep c.checksum r.acc b, idx := r.idx + 1 } : Running).wf c := by
  obtain ⟨heval, hadm, -, hacc, hkeys⟩ := h
  obtain ⟨hlt, -⟩ := List.getElem?_eq_some_iff.mp hb
  refine ⟨heval, hadm, hlt, ?_, hkeys⟩
  show accStep c.checksum r.acc b = accAfter c.checksum ((r.stream c).take (r.idx + 1))
  rw [accAfter_take_succ hb, ← hacc]

/-- R65, R66: a legal operation at the end of its stream ends the evaluation with the checksum of the stream. -/
theorem Running.wf.beat_end {c : Cfg} {r : Running} (h : r.wf c) (hend : (r.stream c).length ≤ r.idx) :
    r.beat c = r.endEvaluation c (checksum c.checksum (r.stream c)) := by
  obtain ⟨-, -, -, hacc, -⟩ := h
  rw [List.take_of_length_le hend] at hacc
  rw [Running.beat_end hend, hacc, accFin_accAfter]

/-- R101: the operation at the first byte of the next key's evaluation, with the candidates found so far. -/
def Running.nextKey (c : Cfg) (r : Running) (found : List Word) : Running :=
  { r with acc := accInit c.checksum, idx := 0, k := r.k + 1, cand := found }

/-- R100, R101: the evaluation of a key of `RECOVER` puts it among the candidates if it is one, and ends the operation
when it was the last. -/
theorem Running.endEvaluation_recover {c : Cfg} {r : Running} {dat : Bytes} {obs : BytePair}
    (hop : r.op = .recover dat obs) (hkeys : r.keysTried c) :
    r.endEvaluation c (checksum c.checksum (r.stream c)) =
      if r.k.toNat + 1 = Config.keySpace then .inr (recoverResponse c dat obs)
      else .inl (r.nextKey c (candidatesBelow c dat (dec16 c.ckOrder obs) (r.k.toNat + 1))) := by
  obtain ⟨hk, hcand⟩ := (Running.keysTried_recover hop).mp hkeys
  have hfound : (if checksum c.checksum (r.stream c) == dec16 c.ckOrder obs then r.cand ++ [candidateKey r.k]
      else r.cand) = candidatesBelow c dat (dec16 c.ckOrder obs) (r.k.toNat + 1) := by
    rw [candidatesBelow_succ, Running.stream_recover hop, candidateKey_eq_ofNat, hcand]
    rfl
  have hlast : (r.k + 1 == 65536#17) = decide (r.k.toNat + 1 = Config.keySpace) := by
    rw [Config.keySpace_eq, Bool.eq_iff_iff, beq_iff_eq, decide_eq_true_iff]
    bv_omega
  simp only [Running.endEvaluation, hop, hfound, hlast, decide_eq_true_eq]
  split
  · next hall => rw [hall]; rfl
  · simp only [Running.nextKey, hop]

/-- R15: `K` counts on without wrapping. -/
theorem Running.toNat_k_succ {r : Running} (hk : r.k.toNat < Config.keySpace) :
    (r.k + 1).toNat = r.k.toNat + 1 := by
  rw [Config.keySpace_eq] at hk
  bv_omega

/-- R101: the next key's evaluation begins legally while keys are left. -/
theorem Running.wf.nextKey {c : Cfg} {r : Running} {dat : Bytes} {obs : BytePair} (h : r.wf c)
    (hop : r.op = .recover dat obs) (hleft : r.k.toNat + 1 ≠ Config.keySpace) :
    (r.nextKey c (candidatesBelow c dat (dec16 c.ckOrder obs) (r.k.toNat + 1))).wf c := by
  obtain ⟨heval, hadm, -, -, hkeys⟩ := h
  obtain ⟨hk, -⟩ := (Running.keysTried_recover hop).mp hkeys
  have hsucc : (r.k + 1).toNat = r.k.toNat + 1 := Running.toNat_k_succ hk
  refine ⟨heval, hadm, Nat.zero_le _, rfl, (Running.keysTried_recover (r := r.nextKey c _) hop).mpr ?_⟩
  show (r.k + 1).toNat < Config.keySpace ∧
    candidatesBelow c dat (dec16 c.ckOrder obs) (r.k.toNat + 1) =
      candidatesBelow c dat (dec16 c.ckOrder obs) (r.k + 1).toNat
  rw [hsucc]
  exact ⟨by omega, rfl⟩

/-- R66, R101: at the end of its stream a legal operation ends with its response, or goes on to the next key. -/
theorem Running.wf.endEvaluation_cases {c : Cfg} {r : Running} (h : r.wf c) :
    (∃ r', r.endEvaluation c (checksum c.checksum (r.stream c)) = .inl r' ∧ r'.wf c ∧ r'.op = r.op ∧
      r'.idx = 0 ∧ r'.k.toNat = r.k.toNat + 1) ∨
    r.endEvaluation c (checksum c.checksum (r.stream c)) = .inr (response c r.op) := by
  have ⟨heval, _, _, _, hkeys⟩ := h
  cases hop : r.op with
  | cksum dat => exact .inr (by simp only [Running.endEvaluation, Running.stream, hop]; rfl)
  | encode dev opc pay key =>
    rw [hop] at heval
    have hlisted : matchFields c.frameTable opc pay = true := heval
    exact .inr (by simp [Running.endEvaluation, Running.stream, hop, response, encodeResponse, hlisted])
  | decode raw =>
    rw [hop] at heval
    cases heval
  | verify dev opc pay ck key => exact .inr (by simp only [Running.endEvaluation, Running.stream, hop]; rfl)
  | recover dat obs =>
    obtain ⟨hk, -⟩ := (Running.keysTried_recover hop).mp hkeys
    rw [Running.endEvaluation_recover hop hkeys]
    by_cases hlast : r.k.toNat + 1 = Config.keySpace
    · exact .inr (if_pos hlast)
    · exact .inl ⟨_, if_neg hlast, h.nextKey hop hlast, hop, rfl, Running.toNat_k_succ hk⟩

/-- Settles O56: inside the stream the beat absorbs a byte, at its end it ends the evaluation. -/
theorem beatMovesOnOrCompletes : Obligations.BeatMovesOnOrCompletes := by
  intro c r h
  cases hb : (r.stream c)[r.idx]? with
  | some b => exact .inl ⟨_, Running.beat_absorb hb, h.absorb hb, rfl, .inl ⟨rfl, rfl⟩⟩
  | none =>
    rw [h.beat_end (List.getElem?_eq_none_iff.mp hb)]
    obtain ⟨r', hr', hwf, hop, hidx, hk⟩ | hdone := h.endEvaluation_cases
    · exact .inl ⟨r', hr', hwf, hop, .inr ⟨hidx, hk⟩⟩
    · exact .inr hdone

/-! ### Where the positions stand -/

theorem Cfg.fits_iff {c : Cfg} {m n : Nat} (hn : c.bufMax = some n) : c.fits m = true ↔ m ≤ n := by
  simp only [Cfg.fits, hn, decide_eq_true_eq]

/-- R14: an admitted stream is at most two key bytes longer than a buffer. -/
theorem length_stream_le {c : Cfg} {r : Running} {n : Nat} (hadm : admits c r.op = true) (hn : c.bufMax = some n) :
    (r.stream c).length ≤ n + 2 := by
  unfold Running.stream
  cases hop : r.op <;>
    simp only [hop, admits, Instr.wf, Bool.and_eq_true, Cfg.fits_iff hn] at hadm
  case cksum dat => exact hadm.trans (Nat.le_add_right n 2)
  case encode dev opc pay key =>
    obtain ⟨-, hframe⟩ := hadm
    rw [length_withKey, length_body]
    omega
  case decode raw => exact Nat.zero_le _
  case verify dev opc pay ck key =>
    obtain ⟨-, hbody⟩ := hadm
    rw [length_withKey, length_body]
    omega
  case recover dat obs =>
    rw [length_withKey]
    exact Nat.add_le_add_right hadm 2

/-- R15, R76: `K` and the candidates found so far stay within the key space. -/
theorem Running.keysTried.bounds {c : Cfg} {r : Running} (h : r.keysTried c) :
    r.k.toNat < 65536 ∧ r.cand.length ≤ 65536 := by
  unfold Running.keysTried at h
  split at h
  case h_1 dat obs _ =>
    obtain ⟨hk, hcand⟩ := h
    rw [Config.keySpace_eq] at hk
    rw [hcand]
    exact ⟨hk, (length_candidatesBelow_le ..).trans hk.le⟩
  all_goals
    obtain ⟨hk, hcand⟩ := h
    simp [hk, hcand]

/-- Settles O57: the bounds of an operation in progress are those of its stream and of its keys, and the count is that
of an increasing list of keys. -/
theorem positionsStayInBounds : Obligations.PositionsStayInBounds := by
  rintro c s ⟨hrsp, hrun⟩
  refine ⟨fun r hr => ?_, fun m hm => hrsp.cnt_le hm⟩
  obtain ⟨-, hadm, hidx, -, hkeys⟩ := hrun r hr
  refine ⟨fun n hn => ?_, hkeys.bounds⟩
  have hlen := length_stream_le hadm hn
  exact ⟨hlen, hidx.trans hlen⟩

end Sys2Proof.Machine
end

section
/-! PROOFS. The steps: what an event and a step can do (R24, R146), and that each keeps the invariant of the block. -/

namespace Sys2Proof.Machine

/-! ### Reads and stops -/

theorem hostRead_of_holds {f : RspField} {s : State} (h : (s.rsp.get f).isSome) : hostRead f s = .next s := by
  obtain ⟨v, hv⟩ := Option.isSome_iff_exists.mp h
  simp only [hostRead, hv]

theorem hostRead_of_none {f : RspField} {s : State} (h : s.rsp.get f = none) :
    hostRead f s = .fault (.noValue f) := by
  simp only [hostRead, h]

theorem step_nil {s : State} (h : s.inbox = []) : step s = .next (beat cfg s) := by
  simp only [step, h]

theorem step_cons {s : State} {e : HostEvent} {rest : List HostEvent} (h : s.inbox = e :: rest) :
    step s = takeEvent e { s with inbox := rest } := by
  simp only [step, h]

/-- R24, R146: an event gives a next state, or is a read of a field without a value. -/
theorem takeEvent_next_or_noValue (e : HostEvent) (s : State) :
    (∃ t, takeEvent e s = .next t) ∨
      ∃ f, e = .read f ∧ s.rsp.get f = none ∧ takeEvent e s = .fault (.noValue f) := by
  cases e with
  | request r => exact .inl (hostRequest_next r s)
  | start r => exact .inl ⟨_, rfl⟩
  | wait => exact .inl ⟨_, rfl⟩
  | read f =>
    cases hf : s.rsp.get f with
    | some v => exact .inl ⟨s, hostRead_of_holds (by rw [hf]; rfl)⟩
    | none => exact .inr ⟨f, rfl, hf, hostRead_of_none hf⟩
  | reset => exact .inl ⟨_, rfl⟩

/-- R24, R146: a step gives a next state, or takes a read of a field without a value. -/
theorem step_next_or_noValue (s : State) :
    (∃ t, step s = .next t) ∨
      ∃ f rest, s.inbox = .read f :: rest ∧ s.rsp.get f = none ∧ step s = .fault (.noValue f) := by
  cases hin : s.inbox with
  | nil => exact .inl ⟨_, step_nil hin⟩
  | cons e rest =>
    rw [step_cons hin]
    obtain hnext | ⟨f, rfl, hf, hfault⟩ := takeEvent_next_or_noValue e { s with inbox := rest }
    · exact .inl hnext
    · exact .inr ⟨f, rest, rfl, hf, hfault⟩

/-- Settles O49: the step takes the read, which answers by whether the field holds a value. -/
theorem readFaultsExactlyWithoutValue : Obligations.ReadFaultsExactlyWithoutValue := by
  intro s f rest hin
  rw [step_cons hin]
  exact ⟨hostRead_of_holds (s := { s with inbox := rest }), hostRead_of_none (s := { s with inbox := rest })⟩

/-- Settles O50: `step_next_or_noValue` leaves no other stop, and the read it names does stop. -/
theorem onlySuchReadsStopTheMachine : Obligations.OnlySuchReadsStopTheMachine := by
  refine fun s => ⟨fun φ => ⟨fun h => ?_, ?_⟩, fun ρ h => ?_⟩
  · obtain ⟨t, hnext⟩ | ⟨f, rest, hin, hf, hfault⟩ := step_next_or_noValue s
    · simp [hnext] at h
    · obtain rfl : Fault.noValue f = φ := by simpa [hfault] using h
      exact ⟨f, rest, rfl, hin, hf⟩
  · rintro ⟨f, rest, rfl, hin, hf⟩
    exact (readFaultsExactlyWithoutValue s f rest hin).2 hf
  · obtain ⟨t, hnext⟩ | ⟨f, rest, -, -, hfault⟩ := step_next_or_noValue s
    · simp [hnext] at h
    · simp [hfault] at h

/-! ### The invariant -/

/-- A block that has completed with a legal response is legal (R19, R38). -/
theorem State.inv_complete {c : Cfg} {r : Response} (h : r.wf c) (s : State) : (s.complete r).Inv c := by
  refine ⟨h, fun r hr => ?_⟩
  cases hr

/-- The reset state, and a state after the reset event, are legal (R23, R130). -/
theorem State.inv_of_empty_idle {c : Cfg} {s : State} (hrsp : s.rsp = Response.empty) (hrun : s.run = none) :
    s.Inv c := by
  refine ⟨hrsp ▸ Response.empty_wf c, fun r hr => ?_⟩
  rw [hrun] at hr
  cases hr

/-- Settles O44: the latch of `State.reset` is the empty one. -/
theorem resetLeavesNoValue : Obligations.ResetLeavesNoValue := by
  refine ⟨rfl, rfl, fun f hf => ?_⟩
  cases f with
  | valid => exact absurd rfl hf
  | _ => rfl

/-- Settles O58: the latch is empty and the block idle. -/
theorem legalStateAtReset : Obligations.LegalStateAtReset := State.inv_of_empty_idle rfl rfl

/-- A busy block is legal when its latch and its operation in progress are. -/
theorem State.inv_busy {c : Cfg} {s : State} {r : Running} (hrsp : s.rsp.wf c) (hr : r.wf c) :
    ({ s with run := some r } : State).Inv c := by
  refine ⟨hrsp, ?_⟩
  rintro _ ⟨⟩
  exact hr

/-- R66, R127: a beat keeps the invariant, by the step lemma of the operation in progress. -/
theorem State.Inv.beat {c : Cfg} {s : State} (h : s.Inv c) : (beat c s).Inv c := by
  obtain ⟨hrsp, hrun⟩ := h
  cases hs : s.run with
  | none => rw [beat_idle c hs]; exact ⟨hrsp, hrun⟩
  | some r =>
    have hr : r.wf c := hrun r hs
    have ⟨_, hadm, _, _, _⟩ := hr
    obtain ⟨r', hr', hwf, -, -⟩ | hdone := beatMovesOnOrCompletes c r hr
    · simpa only [Machine.beat, hs, hr'] using State.inv_busy hrsp hwf
    · simpa only [Machine.beat, hs, hdone] using State.inv_complete (response_wf hadm) s

/-- R32, R39: an admitted operation is started legally. -/
theorem State.Inv.startOp {c : Cfg} {s : State} {i : Instr} (h : s.Inv c) (hadm : admits c i = true) :
    (startOp c i s).Inv c := by
  obtain ⟨hrsp, -⟩ := h
  cases heval : evaluates c i with
  | true =>
    rw [startOp_of_evaluates heval]
    exact State.inv_busy hrsp (Running.fresh_wf heval hadm)
  | false =>
    rw [startOp_of_not_evaluates heval]
    exact State.inv_complete (response_wf hadm) s

/-- R58: the codes rejected by name are 5, 6 and 7. -/
theorem reserved_of_decode_error {r : Request} {op : BitVec 3} (h : decode r = .error (.reservedOp op)) :
    5 ≤ op.toNat := by
  unfold decode at h
  split at h
  case h_6 =>
    obtain rfl : r.op = op := by simpa using h
    grind
  all_goals cases h

/-- R58, R114: a reserved code leaves a legal state. -/
theorem State.inv_raise_illegalOp {c : Cfg} {r : Request} {op : BitVec 3} (h : decode r = .error (.reservedOp op))
    (s : State) : (s.raise op .illegalOp).Inv c :=
  State.inv_complete (illegalOp_wf c (reserved_of_decode_error h)) s

theorem State.Inv.hostRequest {r : Request} {s t : State} (h : s.Inv cfg) (ht : hostRequest r s = .next t) :
    t.Inv cfg := by
  obtain rfl | ⟨-, op, hdec, rfl⟩ | ⟨-, i, -, hadm, rfl⟩ := hostRequest_cases ht
  · exact h
  · exact State.inv_raise_illegalOp hdec s
  · exact State.inv_complete (response_wf hadm) s

theorem State.Inv.hostStart {s : State} (h : s.Inv cfg) (r : Request) : (hostStart r s).Inv cfg := by
  obtain hs | ⟨-, op, hdec, hs⟩ | ⟨-, i, -, hadm, hs⟩ := hostStart_cases r s <;> rw [hs]
  · exact h
  · exact State.inv_raise_illegalOp hdec s
  · exact h.startOp hadm

/-- A read that answers leaves the block as it is (R36). -/
theorem eq_of_hostRead_next {f : RspField} {s t : State} (h : hostRead f s = .next t) : t = s := by
  cases hf : s.rsp.get f with
  | some v =>
    rw [hostRead_of_holds (by rw [hf]; rfl)] at h
    cases h
    rfl
  | none =>
    rw [hostRead_of_none hf] at h
    cases h

theorem State.Inv.takeEvent {e : HostEvent} {s t : State} (h : s.Inv cfg) (ht : takeEvent e s = .next t) :
    t.Inv cfg := by
  cases e with
  | request r => exact h.hostRequest ht
  | start r => cases ht; exact h.hostStart r
  | wait => cases ht; exact h.beat
  | read f => rw [eq_of_hostRead_next ht]; exact h
  | reset => cases ht; exact State.inv_of_empty_idle rfl rfl

/-- Settles O59: a step is a beat or an event, taken from a state whose inbox plays no part in the invariant. -/
theorem everyStepKeepsLegalStates : Obligations.EveryStepKeepsLegalStates := by
  intro s t h ht
  cases hin : s.inbox with
  | nil =>
    rw [step_nil hin] at ht
    cases ht
    exact h.beat
  | cons e rest =>
    rw [step_cons hin] at ht
    have hrest : ({ s with inbox := rest } : State).Inv cfg := h
    exact hrest.takeEvent ht

end Sys2Proof.Machine
end

section
/-! PROOFS. The sequencer against the atomic operation (R38, R39, R66, R101, R146): the beats an operation in progress
still takes, and the response it ends with after them. -/

namespace Sys2Proof.Machine

/-! ### `BUF_MAX` plays no part in a beat -/

/-- The configuration without a bound on its buffers. Admission is all that reads the bound (R32), so a fact about
beats holds of every operation if it holds of those this configuration admits. -/
def unbounded (c : Cfg) : Cfg := { c with bufMax := none }

theorem admits_unbounded (c : Cfg) (i : Instr) : admits (unbounded c) i = true := by cases i <;> rfl

theorem response_unbounded (c : Cfg) (i : Instr) : response (unbounded c) i = response c i := by cases i <;> rfl

theorem workOf_unbounded (c : Cfg) (i : Instr) : workOf (unbounded c) i = workOf c i := by cases i <;> rfl

theorem startOp_unbounded (c : Cfg) (i : Instr) (s : State) : startOp (unbounded c) i s = startOp c i s := by
  cases i <;> rfl

theorem beats_unbounded (c : Cfg) (n : Nat) (s : State) : beats (unbounded c) n s = beats c n s := by
  induction n generalizing s with
  | zero => rfl
  | succ n ih => exact ih (beat c s)

/-! ### The beats an operation in progress still takes -/

/-- The keys to be tried after the one whose evaluation is in progress; an operation other than `RECOVER` makes one
evaluation only (R101). -/
def Running.keysLeft (r : Running) : Nat :=
  match r.op with
  | .recover _ _ => Config.keySpace - (r.k.toNat + 1)
  | _ => 0

/-- The beats to the end of the operation: those of the evaluations to come, one per byte and one for the end (R66),
and those of the evaluation in progress. -/
def Running.beatsLeft (c : Cfg) (r : Running) : Nat :=
  r.keysLeft * ((r.stream c).length + 1) + ((r.stream c).length - r.idx) + 1

theorem Running.keysLeft_recover {r : Running} {dat : Bytes} {obs : BytePair} (h : r.op = .recover dat obs) :
    r.keysLeft = Config.keySpace - (r.k.toNat + 1) := by
  simp only [Running.keysLeft, h]

/-- The streams of one operation are equally long: they differ in the two key bytes at most (R100). -/
theorem Running.length_stream_congr (c : Cfg) {r r' : Running} (h : r'.op = r.op) :
    (r'.stream c).length = (r.stream c).length := by
  unfold Running.stream
  rw [h]
  cases r.op with
  | recover dat obs => simp only [length_withKey]
  | _ => rfl

/-- R101: only `RECOVER` goes on to another key, and the next key is the first of those left. -/
theorem Running.keysLeft_of_nextKey {c : Cfg} {r r' : Running} (h : r'.wf c) (hop : r'.op = r.op)
    (hk : r'.k.toNat = r.k.toNat + 1) : r.keysLeft = r'.keysLeft + 1 := by
  obtain ⟨-, -, -, -, hkeys⟩ := h
  unfold Running.keysTried at hkeys
  split at hkeys
  case h_1 dat obs hrec =>
    obtain ⟨hlt, -⟩ := hkeys
    rw [Running.keysLeft_recover hrec, Running.keysLeft_recover (hop.symm.trans hrec)]
    omega
  all_goals
    obtain ⟨hzero, -⟩ := hkeys
    rw [hzero] at hk
    cases hk

/-- R101: an evaluation that ends the operation was that of the last key. -/
theorem Running.wf.keysLeft_of_done {c : Cfg} {r : Running} {rsp : Response} (h : r.wf c)
    (hdone : r.endEvaluation c (checksum c.checksum (r.stream c)) = .inr rsp) : r.keysLeft = 0 := by
  obtain ⟨-, -, -, -, hkeys⟩ := h
  cases hop : r.op with
  | recover dat obs =>
    rw [Running.endEvaluation_recover hop hkeys] at hdone
    split at hdone
    · next hlast => rw [Running.keysLeft_recover hop, hlast, Nat.sub_self]
    · cases hdone
  | _ => simp only [Running.keysLeft, hop]

/-- One beat of a legal operation is one beat fewer to its end; the last one leaves its response. -/
theorem Running.wf.beat_beatsLeft {c : Cfg} {r : Running} (h : r.wf c) :
    (∃ r', r.beat c = .inl r' ∧ r'.wf c ∧ r'.op = r.op ∧ r.beatsLeft c = r'.beatsLeft c + 1) ∨
      r.beat c = .inr (response c r.op) ∧ r.beatsLeft c = 1 := by
  cases hb : (r.stream c)[r.idx]? with
  | some b =>
    obtain ⟨hlt, -⟩ := List.getElem?_eq_some_iff.mp hb
    refine .inl ⟨_, Running.beat_absorb hb, h.absorb hb, rfl, ?_⟩
    show r.keysLeft * ((r.stream c).length + 1) + ((r.stream c).length - r.idx) + 1 =
      r.keysLeft * ((r.stream c).length + 1) + ((r.stream c).length - (r.idx + 1)) + 1 + 1
    omega
  | none =>
    have hend : (r.stream c).length ≤ r.idx := List.getElem?_eq_none_iff.mp hb
    rw [h.beat_end hend]
    obtain ⟨r', hr', hwf, hop, hidx, hk⟩ | hdone := h.endEvaluation_cases
    · refine .inl ⟨r', hr', hwf, hop, ?_⟩
      rw [Running.beatsLeft, Running.beatsLeft, Running.length_stream_congr c hop,
        Running.keysLeft_of_nextKey hwf hop hk, Nat.succ_mul, hidx]
      omega
    · refine .inr ⟨hdone, ?_⟩
      rw [Running.beatsLeft, h.keysLeft_of_done hdone]
      omega

/-! ### The run of an operation -/

theorem beat_of_inl {c : Cfg} {s : State} {r r' : Running} (hs : s.run = some r) (h : r.beat c = .inl r') :
    beat c s = { s with run := some r' } := by
  simp only [beat, hs, h]

theorem beat_of_inr {c : Cfg} {s : State} {r : Running} {rsp : Response} (hs : s.run = some r)
    (h : r.beat c = .inr rsp) : beat c s = s.complete rsp := by
  simp only [beat, hs, h]

/-- R38, R66: a legal operation in progress ends after the beats left to it, and not before. -/
theorem beats_of_busy {c : Cfg} {n : Nat} {s : State} {r : Running} (hs : s.run = some r) (h : r.wf c)
    (hn : r.beatsLeft c = n) :
    beats c n s = s.complete (response c r.op) ∧
      ∀ m < n, (beats c m s).run.isSome ∧ (beats c m s).rsp = s.rsp := by
  induction n generalizing s r with
  | zero => cases hn
  | succ n ih =>
    have hstart : (beats c 0 s).run.isSome ∧ (beats c 0 s).rsp = s.rsp := by simp [hs]
    obtain ⟨r', hr', hwf, hop, hleft⟩ | ⟨hdone, hleft⟩ := h.beat_beatsLeft
    · obtain ⟨hlast, hbefore⟩ := ih (s := beat c s) (by rw [beat_of_inl hs hr']) hwf (by omega)
      refine ⟨?_, ?_⟩
      · rw [beats_succ, hlast, hop, beat_of_inl hs hr']
        rfl
      · rintro (_ | m) hm
        · exact hstart
        · rw [beats_succ]
          have hrsp : (beat c s).rsp = s.rsp := by rw [beat_of_inl hs hr']
          exact hrsp ▸ hbefore m (by omega)
    · obtain rfl : n = 0 := by omega
      refine ⟨beat_of_inr hs hdone, fun m hm => ?_⟩
      obtain rfl : m = 0 := by omega
      exact hstart

/-- The checksum input of a body, which `ENCODE` and `VERIFY` evaluate, is the body and two key bytes (R46). -/
theorem length_withKey_body (c : Cfg) (dev : Byte) (opc pay : Bytes) (key : Word) :
    (withKey c (body dev opc pay) key).length = opc.length + pay.length + 3 := by
  rw [length_withKey, length_body]

/-- As it is started, an operation stands before the first byte of its stream. -/
theorem beatsLeft_fresh_eq (c : Cfg) (i : Instr) {n : Nat} (h : ((Running.fresh c i).stream c).length = n) :
    (Running.fresh c i).beatsLeft c = (Running.fresh c i).keysLeft * (n + 1) + n + 1 := by
  rw [Running.beatsLeft, h]
  rfl

/-- R101: `RECOVER` starts with the first key, and all others are left. -/
theorem keysLeft_fresh_recover (c : Cfg) (dat : Bytes) (obs : BytePair) :
    (Running.fresh c (.recover dat obs)).keysLeft = Config.keySpace - 1 := rfl

/-- R145: the work of an operation is the beats left to it as it is started. -/
theorem beatsLeft_fresh {c : Cfg} {i : Instr} (h : evaluates c i = true) :
    (Running.fresh c i).beatsLeft c = workOf c i := by
  simp only [workOf, h, if_true]
  cases i with
  | cksum dat =>
    rw [beatsLeft_fresh_eq c (.cksum dat) (n := dat.length) rfl]
    show 0 * (dat.length + 1) + dat.length + 1 = dat.length + 1
    omega
  | encode dev opc pay key =>
    rw [beatsLeft_fresh_eq c (.encode dev opc pay key) (length_withKey_body c dev opc pay key)]
    show 0 * _ + (opc.length + pay.length + 3) + 1 = opc.length + pay.length + 4
    omega
  | decode raw => cases h
  | verify dev opc pay ck key =>
    rw [beatsLeft_fresh_eq c (.verify dev opc pay ck key) (length_withKey_body c dev opc pay key)]
    show 0 * _ + (opc.length + pay.length + 3) + 1 = opc.length + pay.length + 4
    omega
  | recover dat obs =>
    rw [beatsLeft_fresh_eq c (.recover dat obs) (length_withKey c dat _), keysLeft_fresh_recover]
    show (Config.keySpace - 1) * (dat.length + 3) + (dat.length + 2) + 1 = Config.keySpace * (dat.length + 3)
    rw [Config.keySpace_eq]
    omega

/-- R38, R39: an admitted operation, once started, ends after its work with its response, and not before. -/
theorem beats_startOp {c : Cfg} {i : Instr} (hadm : admits c i = true) (s : State) :
    beats c (workOf c i) (startOp c i s) = s.complete (response c i) ∧
      ∀ m < workOf c i, (beats c m (startOp c i s)).run.isSome ∧ (beats c m (startOp c i s)).rsp = s.rsp := by
  cases heval : evaluates c i with
  | true =>
    rw [startOp_of_evaluates heval]
    exact beats_of_busy rfl (Running.fresh_wf heval hadm) (beatsLeft_fresh heval)
  | false =>
    have hwork : workOf c i = 0 := by simp [workOf, heval]
    rw [startOp_of_not_evaluates heval, hwork]
    exact ⟨rfl, fun m hm => absurd hm (Nat.not_lt_zero m)⟩

/-- Settles O54: `beats_startOp` without the bound on the buffers, which admits every operation. -/
theorem sequencerRunIsTheOperation : Obligations.SequencerRunIsTheOperation := by
  intro c i s
  have h := beats_startOp (admits_unbounded c i) s
  rw [workOf_unbounded, startOp_unbounded, response_unbounded] at h
  simp only [beats_unbounded] at h
  exact h

end Sys2Proof.Machine
end

section
/-! PROOFS. Requests on an idle block (20_memory.md R32, R37): what is admitted, the step on a request, and the runs of
the machine over requests and over an operation left alone. -/

namespace Sys2Proof.Machine

/-! ### The step on a request -/

/-- R55, R56: the decoder reads an operation's own request back. -/
@[simp] theorem decode_encode (i : Instr) : decode (encode i) = .ok i := by cases i <;> rfl

/-- R32, R37: a request to an idle block runs its operation if admitted. -/
theorem hostRequest_of_idle {r : Request} {i : Instr} {s : State} (hs : s.run = none) (hr : decode r = .ok i) :
    hostRequest r s = if admits cfg i = true then exec i s else .next s := by
  simp only [hostRequest, hs, hr, port_exec]
  rw [exec_eq, apply_ite Host.Outcome.next]

/-- R32, R39: a request to an idle block that is not waited for starts its operation if admitted. -/
theorem hostStart_of_idle {r : Request} {i : Instr} {s : State} (hs : s.run = none) (hr : decode r = .ok i) :
    hostStart r s = if admits cfg i = true then startOp cfg i s else s := by
  simp only [hostStart, hs, hr]

/-- Settles O46: the step takes the event, and an idle block answers it by the decoded operation and its admission. -/
theorem stepRunsTheDecodedOperation : Obligations.StepRunsTheDecodedOperation := by
  refine fun s rest => ⟨fun r i hs hr => ⟨fun hin => ?_, fun hin => ?_⟩, step_nil, fun hin => step_cons hin⟩
  · rw [step_cons hin]
    exact hostRequest_of_idle (s := { s with inbox := rest }) hs hr
  · rw [step_cons hin, ← apply_ite Host.Outcome.next]
    exact congrArg Host.Outcome.next (hostStart_of_idle (s := { s with inbox := rest }) hs hr)

/-! ### Runs of the machine -/

/-- A step that gives a next state is the first of a longer run. -/
theorem coreRun_succ_of_step {M : Host.Core} {s t : M.State} (h : M.step s = .next t) (n : Nat) :
    M.run (n + 1) s = M.run n t := by
  simp only [Host.Core.run, h]

/-- The same of the machine of the model, whose step is `step`. -/
theorem run_succ_of_step {s t : State} (h : step s = .next t) (n : Nat) :
    Host.Core.run Sys2Proof.core (n + 1) s = Host.Core.run Sys2Proof.core n t :=
  coreRun_succ_of_step (M := Sys2Proof.core) h n

/-- Left alone, the machine runs in beats. -/
theorem run_eq_beats {s : State} (h : s.inbox = []) (n : Nat) :
    Host.Core.run Sys2Proof.core n s = .next (beats cfg n s) := by
  induction n generalizing s with
  | zero => rfl
  | succ n ih => rw [run_succ_of_step (step_nil h), ih ((beat_inbox cfg s).trans h), beats_succ]

/-- R37: the step on an admitted request leaves its response, whatever the latch held. -/
theorem step_request_encode {i : Instr} {s : State} {rest : List HostEvent} (hs : s.run = none)
    (hadm : admits cfg i = true) (hin : s.inbox = .request (encode i) :: rest) :
    step s = .next { rsp := response cfg i, run := none, inbox := rest } := by
  obtain ⟨hops, -⟩ := stepRunsTheDecodedOperation s rest
  rw [(hops (encode i) i hs (decode_encode i)).1 hin, if_pos hadm, exec_eq]
  rfl

/-- Settles O53, by induction on the requests issued before the last: each step leaves an idle block again. -/
theorem requestsAreAnsweredInOrder : Obligations.RequestsAreAnsweredInOrder := by
  intro is i s rest hs hadm hin
  induction is generalizing s with
  | nil =>
    have hlast : admits cfg i = true := hadm i (by simp)
    exact run_succ_of_step (step_request_encode hs hlast hin) 0
  | cons j js ih =>
    have hj : admits cfg j = true := hadm j (by simp)
    rw [List.length_cons, run_succ_of_step (step_request_encode hs hj hin)]
    exact ih _ rfl (fun k hk => hadm k (List.mem_cons_of_mem j hk)) rfl

/-- Settles O55: the start is one step, and the steps after it are the beats of O54. -/
theorem startedOperationEndsInSteps : Obligations.StartedOperationEndsInSteps := by
  intro i s hs hadm hin
  obtain ⟨hops, -⟩ := stepRunsTheDecodedOperation s []
  have hstart : step s = .next (startOp cfg i { s with inbox := [] }) := by
    rw [(hops (encode i) i hs (decode_encode i)).2 hin, if_pos hadm]
  obtain ⟨hend, -⟩ := sequencerRunIsTheOperation cfg i { s with inbox := [] }
  rw [Nat.add_comm, run_succ_of_step hstart, run_eq_beats (startOp_inbox ..), hend]

/-! ### Admission -/

theorem Cfg.fits_iff_forall {c : Cfg} {m : Nat} : c.fits m = true ↔ ∀ n, c.bufMax = some n → m ≤ n := by
  cases hb : c.bufMax with
  | none => simp [Cfg.fits, hb]
  | some n => simp [Cfg.fits_iff hb]

/-- Settles O47: admission is the conjunction of the lengths that fit, and each fits when it is within the bound. -/
theorem admissionIsTheSizeRule : Obligations.AdmissionIsTheSizeRule := by
  intro c
  simp only [admits, Instr.wf, Bool.and_eq_true, Cfg.fits_iff_forall, and_assoc, imp_and, forall_and, implies_true,
    and_self]

end Sys2Proof.Machine
end

section
/-! PROOFS. The decoder of requests (30_encoding.md R55, R56, R58): what each `OP` value gives, and the step on a
reserved one (R114). -/

namespace Sys2Proof.Machine

/-- Settles O2: the decoder's five arms, one per code, read the fields of their formats only. -/
theorem formatFieldsAloneAreDecoded : Obligations.FormatFieldsAloneAreDecoded := by
  refine fun r => ⟨?_, ?_, ?_, ?_, ?_⟩
  all_goals
    intro hop
    simp only [decode, hop]
    rfl

/-- R58: the three codes above those of the operations are rejected by name. -/
theorem decode_of_reserved {r : Request} (h : 5 ≤ r.op.toNat) : decode r = .error (.reservedOp r.op) := by
  unfold decode
  split
  case h_6 => rfl
  all_goals omega

/-- R55: the codes below the reserved ones. -/
theorem op_cases_of_toNat_lt_five :
    ∀ op : BitVec 3, op.toNat < 5 → op = 0b000#3 ∨ op = 0b001#3 ∨ op = 0b010#3 ∨ op = 0b011#3 ∨ op = 0b100#3 := by
  decide

/-- Settles O1: the five codes are those of O2, and the others are rejected. -/
theorem decoderIsTotalOnOp : Obligations.DecoderIsTotalOnOp := by
  refine fun r => ⟨fun h => ?_, decode_of_reserved⟩
  obtain ⟨hcksum, hencode, hdecode, hverify, hrecover⟩ := formatFieldsAloneAreDecoded r
  obtain hop | hop | hop | hop | hop := op_cases_of_toNat_lt_five r.op h
  · exact ⟨_, hcksum hop, hop.symm⟩
  · exact ⟨_, hencode hop, hop.symm⟩
  · exact ⟨_, hdecode hop, hop.symm⟩
  · exact ⟨_, hverify hop, hop.symm⟩
  · exact ⟨_, hrecover hop, hop.symm⟩

/-- Settles O3: each operation's request carries its code and the fields of its format. -/
theorem decodeOfEncode : Obligations.DecodeOfEncode := decode_encode

/-- Settles O4: the eight words, evaluated. -/
theorem tableWordsDecode : Obligations.TableWordsDecode := by
  unfold Obligations.TableWordsDecode
  decide

/-! ### The step on a reserved code -/

/-- R57, R111: an operation ends with one of the codes R57 gives it. -/
theorem response_err_mem (c : Cfg) (i : Instr) :
    ∃ err, (response c i).err = some err ∧ err ∈ errorCodes (opCode i) := by
  obtain ⟨err, -, -, herr, hcode, -⟩ := response_writtenBy c i
  exact ⟨err, herr, hcode⟩

/-- R111: `IllegalOp` is not among the codes of any operation. -/
theorem illegalOp_notMem_errorCodes (i : Instr) : 5#3 ∉ errorCodes (opCode i) := by
  cases i <;> simp [opCode, errorCodes]

theorem hostRequest_of_reserved {r : Request} {s : State} (hs : s.run = none) (hr : 5 ≤ r.op.toNat) :
    hostRequest r s = .next (s.raise r.op .illegalOp) := by
  simp only [hostRequest, hs, decode_of_reserved hr]

theorem hostStart_of_reserved {r : Request} {s : State} (hs : s.run = none) (hr : 5 ≤ r.op.toNat) :
    hostStart r s = s.raise r.op .illegalOp := by
  simp only [hostStart, hs, decode_of_reserved hr]

/-- Settles O43: no operation returns the code, and either way of issuing a reserved request raises it. -/
theorem reservedOpIsIllegal : Obligations.ReservedOpIsIllegal := by
  refine ⟨fun c i h => ?_, ?_⟩
  · obtain ⟨err, herr, hmem⟩ := response_err_mem c i
    obtain rfl : err = 5#3 := by rwa [herr, Option.some_inj] at h
    exact illegalOp_notMem_errorCodes i hmem
  · rintro s r rest hs hr (hin | hin)
    · rw [step_cons hin]
      exact hostRequest_of_reserved (s := { s with inbox := rest }) hs hr
    · rw [step_cons hin]
      exact congrArg Host.Outcome.next (hostStart_of_reserved (s := { s with inbox := rest }) hs hr)

end Sys2Proof.Machine
end

section
/-! PROOFS. The two-byte forms of a 16-bit value (30_encoding.md R49): their bytes in numbers, and that reading and
writing are inverse. -/

namespace Sys2Proof.Machine

theorem toNat_hi8 (v : Word) : (hi8 v).toNat = v.toNat / 256 := by
  rw [hi8, BitVec.extractLsb'_toNat, Nat.shiftRight_eq_div_pow]
  omega

theorem toNat_lo8 (v : Word) : (lo8 v).toNat = v.toNat % 256 := by
  rw [lo8, BitVec.extractLsb'_toNat, Nat.shiftRight_zero]

theorem toNat_append_bytes (a b : Byte) : (a ++ b : Word).toNat = a.toNat * 256 + b.toNat := by
  rw [BitVec.toNat_append, ← Nat.shiftLeft_add_eq_or_of_lt b.isLt, Nat.shiftLeft_eq]

theorem hi8_append (a b : Byte) : hi8 (a ++ b) = a := by
  apply BitVec.eq_of_toNat_eq
  rw [toNat_hi8, toNat_append_bytes]
  omega

theorem lo8_append (a b : Byte) : lo8 (a ++ b) = b := by
  apply BitVec.eq_of_toNat_eq
  rw [toNat_lo8, toNat_append_bytes]
  omega

theorem hi8_append_lo8 (v : Word) : hi8 v ++ lo8 v = v := by
  apply BitVec.eq_of_toNat_eq
  rw [toNat_append_bytes, toNat_hi8, toNat_lo8]
  omega

/-- R49: reading what was written gives the value back, in either order. -/
@[simp] theorem dec16_enc16 (o : ByteOrder) (v : Word) : dec16 o (enc16 o v) = v := by
  cases o <;> exact hi8_append_lo8 v

/-- R49: writing what was read gives the bytes back, in either order. -/
@[simp] theorem enc16_dec16 (o : ByteOrder) (p : BytePair) : enc16 o (dec16 o p) = p := by
  cases o <;> simp only [enc16, dec16, hi8_append, lo8_append]

/-- Settles O5: the numbers of the two bytes, and the two inverse laws. -/
theorem twoByteFormsAreInverse : Obligations.TwoByteFormsAreInverse :=
  ⟨fun v => ⟨toNat_hi8 v, toNat_lo8 v⟩, fun v => ⟨toNat_lo8 v, toNat_hi8 v⟩,
    fun p => ⟨toNat_append_bytes p.first p.second, toNat_append_bytes p.second p.first⟩, dec16_enc16, enc16_dec16⟩

end Sys2Proof.Machine
end

section
/-! PROOFS. Frames and the framing table (30_encoding.md R47, R51, R52; 10_state.md R17): the check on the table is
that every `rest` has at most one entry, so that `match_rest` finds it. -/

namespace Sys2Proof

/-- R51: the entry accounts for an undivided `rest`: its opcode, then as many payload bytes as it takes. -/
def FrameEntry.accountsFor (e : FrameEntry) (rest : Bytes) : Prop :=
  e.opcode.length + e.payLen = rest.length ∧ e.opcode <+: rest

/-- R52: the two entries have different opcode bytes and account for no common `rest`. -/
def FrameEntry.separateFrom (e f : FrameEntry) : Prop :=
  e.opcode ≠ f.opcode ∧ ∀ rest, e.accountsFor rest → ¬ f.accountsFor rest

theorem FrameEntry.separateFrom_symm : Std.Symm FrameEntry.separateFrom :=
  ⟨fun _ _ ⟨hne, hsep⟩ => ⟨hne.symm, fun rest hf he => hsep rest he hf⟩⟩

/-- An entry accounts for its opcode followed by any payload of its length. -/
theorem FrameEntry.accountsFor_append (e : FrameEntry) {pay : Bytes} (h : e.payLen = pay.length) :
    e.accountsFor (e.opcode ++ pay) :=
  ⟨by rw [List.length_append, h], List.prefix_append ..⟩

/-- Two entries of one total length, the opcode of one beginning that of the other, account for a common `rest`. -/
theorem FrameEntry.exists_accountsFor_of_prefix {e f : FrameEntry} (hlen : e.restLen = f.restLen)
    (hpre : e.opcode <+: f.opcode) : ∃ rest, e.accountsFor rest ∧ f.accountsFor rest := by
  have hf : f.accountsFor (f.opcode ++ List.replicate f.payLen 0) :=
    f.accountsFor_append List.length_replicate.symm
  obtain ⟨hflen, hfpre⟩ := hf
  exact ⟨_, ⟨hlen.trans hflen, hpre.trans hfpre⟩, hflen, hfpre⟩

/-- R52: the check on two entries says that no `rest` fits both. -/
theorem FrameEntry.compatible_iff {e f : FrameEntry} : e.compatible f = true ↔ e.separateFrom f := by
  have hcheck : e.compatible f = true ↔
      e.opcode ≠ f.opcode ∧ (e.restLen = f.restLen → ¬ e.opcode <+: f.opcode ∧ ¬ f.opcode <+: e.opcode) := by
    simp [FrameEntry.compatible, ← Bool.not_eq_true, List.isPrefixOf_iff_prefix, imp_iff_not_or]
  rw [hcheck, FrameEntry.separateFrom, and_congr_right_iff]
  refine fun _ => ⟨fun h rest ⟨helen, hepre⟩ ⟨hflen, hfpre⟩ => ?_, fun h hlen => ⟨fun hpre => ?_, fun hpre => ?_⟩⟩
  · obtain ⟨hef, hfe⟩ := h (helen.trans hflen.symm)
    exact (List.prefix_or_prefix_of_prefix hepre hfpre).elim hef hfe
  · obtain ⟨rest, he, hf⟩ := FrameEntry.exists_accountsFor_of_prefix hlen hpre
    exact h rest he hf
  · obtain ⟨rest, hf, he⟩ := FrameEntry.exists_accountsFor_of_prefix hlen.symm hpre
    exact h rest he hf

theorem frameTableWf_iff_pairwise {table : List FrameEntry} :
    frameTableWf table = true ↔ table.Pairwise FrameEntry.separateFrom := by
  induction table with
  | nil => simp [frameTableWf]
  | cons e rest ih => simp [frameTableWf, ih, FrameEntry.compatible_iff]

/-- R51: every `rest` has at most one entry of the table. -/
def tableUnambiguous (table : List FrameEntry) : Prop :=
  ∀ (rest : Bytes) (e f : FrameEntry), e ∈ table → f ∈ table → e.accountsFor rest → f.accountsFor rest → e = f

/-- R52: a table whose entries are pairwise separate has different opcodes and is unambiguous, and conversely. -/
theorem frameTableWf_iff {table : List FrameEntry} :
    frameTableWf table = true ↔ (table.map FrameEntry.opcode).Nodup ∧ tableUnambiguous table := by
  rw [frameTableWf_iff_pairwise, List.Nodup, List.pairwise_map]
  constructor
  · refine fun h => ⟨h.imp And.left, fun rest e f he hf hacce haccf => ?_⟩
    have := FrameEntry.separateFrom_symm
    by_contra hne
    obtain ⟨-, hsep⟩ := h.forall he hf hne
    exact hsep rest hacce haccf
  · rintro ⟨hnodup, huniq⟩
    refine hnodup.imp_of_mem fun he hf hne => ⟨hne, fun rest hacce haccf => hne ?_⟩
    rw [huniq rest _ _ he hf hacce haccf]

theorem tableUnambiguous_of_wf {table : List FrameEntry} (h : frameTableWf table = true) : tableUnambiguous table :=
  (frameTableWf_iff.mp h).2

/-- R52, R17: the parts of the check on a configuration. -/
theorem Cfg.legal_iff {c : Cfg} : c.legal = true ↔ frameTableWf c.frameTable = true ∧
    ∀ n, c.bufMax = some n → 3 ≤ n ∧ ∀ e ∈ c.frameTable, e.opcode.length + e.payLen + 3 ≤ n := by
  cases hb : c.bufMax with
  | none => simp [Cfg.legal, hb]
  | some n =>
    simp only [Cfg.legal, hb, Bool.and_eq_true, decide_eq_true_eq, List.all_eq_true, Option.some_inj, forall_eq']
    rfl

end Sys2Proof

namespace Sys2Proof.Machine

/-- Settles O7: the frames are the sequences of at least 3 bytes, each in its three parts. -/
theorem frameSplitsIntoThreeParts : Obligations.FrameSplitsIntoThreeParts := by
  refine fun raw => ⟨splitFrame_short, fun h => ?_⟩
  obtain ⟨dev, rest, a, b, rfl⟩ := exists_frame_parts h
  exact ⟨_, splitFrame_parts dev rest a b, rfl⟩

/-- Settles O9: the check on a table and on a configuration, part by part, and `CFG` is settled to pass it. -/
theorem tableCheckIsUnambiguity : Obligations.TableCheckIsUnambiguity := by
  refine ⟨fun table => ?_, fun c => Cfg.legal_iff, cfg_legal⟩
  simpa only [tableUnambiguous, FrameEntry.accountsFor, and_imp] using frameTableWf_iff (table := table)

/-! ### `match_rest` and `match_fields` -/

theorem accountsFor_of_matchRest {table : List FrameEntry} {rest : Bytes} {e : FrameEntry}
    (h : matchRest table rest = some e) : e.accountsFor rest := by
  obtain ⟨-, hlen, htake⟩ := matchRest_some h
  exact ⟨hlen, List.prefix_iff_eq_take.mpr htake.symm⟩

theorem not_accountsFor_of_matchRest_none {table : List FrameEntry} {rest : Bytes} {e : FrameEntry}
    (h : matchRest table rest = none) (he : e ∈ table) : ¬ e.accountsFor rest := by
  rintro ⟨hlen, hpre⟩
  have htest := List.find?_eq_none.mp h e he
  simp [FrameEntry.restLen, hlen, memRead, ← List.prefix_iff_eq_take.mp hpre] at htest

/-- R51: under a well-formed table `match_rest` finds the entry that accounts for `rest`. -/
theorem matchRest_eq_some_iff {table : List FrameEntry} (hwf : frameTableWf table = true) {rest : Bytes}
    {e : FrameEntry} : matchRest table rest = some e ↔ e ∈ table ∧ e.accountsFor rest := by
  constructor
  · intro h
    obtain ⟨hmem, -⟩ := matchRest_some h
    exact ⟨hmem, accountsFor_of_matchRest h⟩
  · rintro ⟨hmem, hacc⟩
    cases hf : matchRest table rest with
    | none => exact absurd hacc (not_accountsFor_of_matchRest_none hf hmem)
    | some f =>
      obtain ⟨hfmem, -⟩ := matchRest_some hf
      rw [tableUnambiguous_of_wf hwf rest e f hmem hfmem hacc (accountsFor_of_matchRest hf)]

/-- R51, R52: the entry by which `match_fields` holds is the one `match_rest` finds. -/
theorem matchRest_append_of_matchFields {table : List FrameEntry} (hwf : frameTableWf table = true) {opc pay : Bytes}
    (h : matchFields table opc pay = true) : matchRest table (opc ++ pay) = some ⟨opc, pay.length⟩ := by
  obtain ⟨⟨_, _⟩, he, rfl, rfl⟩ := matchFields_iff.mp h
  exact (matchRest_eq_some_iff hwf).mpr ⟨he, FrameEntry.accountsFor_append _ rfl⟩

/-- Settles O8: unambiguity of the table, and what the two functions find in it. -/
theorem matchRestFindsTheOneEntry : Obligations.MatchRestFindsTheOneEntry := by
  refine fun table hwf => ⟨fun rest e f he hf helen hepre hflen hfpre => ?_, fun rest e => matchRest_eq_some_iff hwf,
    fun opc pay => matchFields_iff, fun opc pay => matchRest_append_of_matchFields hwf⟩
  exact tableUnambiguous_of_wf hwf rest e f he hf ⟨helen, hepre⟩ ⟨hflen, hfpre⟩

end Sys2Proof.Machine
end

section
/-! PROOFS. `RECOVER_PKT` (30_encoding.md R60, R62): the packet split before its last two bytes, and the key it finds
of a frame `ENCODE` built (R107). -/

namespace Sys2Proof.Machine

theorem recoverPkt_append (d : Bytes) (a b : Byte) : recoverPkt (d ++ [a, b]) = some (.recover d ⟨a, b⟩) := by
  have hlen : (d ++ [a, b]).length - 2 = d.length := by simp
  have hlast : memRead (d ++ [a, b]) d.length 2 = [a, b] := memRead_append d [a, b] 2
  simp only [recoverPkt, hlen, hlast, memRead_zero_append]

theorem recoverPkt_of_short {full : Bytes} (h : full.length < 2) : recoverPkt full = none := by
  match full, h with
  | [], _ => rfl
  | [_], _ => rfl

/-- R62, R80: of a wire frame `RECOVER_PKT` searches the body, against the checksum bytes. -/
theorem recoverPkt_wireFrame (c : Cfg) (dev : Byte) (opc pay : Bytes) (ck : Word) :
    recoverPkt (wireFrame c dev opc pay ck) = some (.recover (body dev opc pay) (enc16 c.ckOrder ck)) :=
  recoverPkt_append ..

/-- R80, R81: a frame in the response of `ENCODE` is the wire frame of its operands. -/
theorem eq_wireFrame_of_encodeResponse_raw {c : Cfg} {dev : Byte} {opc pay raw : Bytes} {key : Word}
    (h : (encodeResponse c dev opc pay key).raw = some raw) :
    raw = wireFrame c dev opc pay (checksum c.checksum (withKey c (body dev opc pay) key)) := by
  unfold encodeResponse at h
  split at h
  · exact (Option.some_inj.mp h).symm
  · cases h

/-- R100: the candidates are the keys that reproduce the observed checksum. -/
theorem mem_candidates {c : Cfg} {dat : Bytes} {obs : BytePair} {k : Word} :
    k ∈ candidates c dat obs ↔ checksum c.checksum (withKey c dat k) = dec16 c.ckOrder obs := by
  have hk : k.toNat < Config.keySpace := Config.keySpace_eq ▸ k.isLt
  rw [candidates, candidatesBelow, List.mem_filter, isCandidate, beq_iff_eq, and_iff_right]
  exact List.mem_map.mpr ⟨k.toNat, List.mem_range.mpr hk, by simp⟩

/-- R100: a candidate makes the list the result of `RECOVER`. -/
theorem recoverResponse_cand_of_mem {c : Cfg} {dat : Bytes} {obs : BytePair} {k : Word}
    (h : k ∈ candidates c dat obs) : (recoverResponse c dat obs).cand = some (candidates c dat obs) := by
  rw [recoverResponse, recoverResult_of_ne_nil (List.ne_nil_of_mem h)]

/-- R107: the key a checksum was made with is a candidate for it. -/
theorem key_mem_candidates (c : Cfg) (dat : Bytes) (key : Word) :
    key ∈ candidates c dat (enc16 c.ckOrder (checksum c.checksum (withKey c dat key))) :=
  mem_candidates.mpr (dec16_enc16 ..).symm

/-- Settles O38: the split of a packet, and R107 for the body of a frame `ENCODE` built. -/
theorem recoverPktFindsTheKey : Obligations.RecoverPktFindsTheKey := by
  refine ⟨recoverPkt_append, fun full => recoverPkt_of_short, fun c dev opc pay raw key h => ?_⟩
  obtain rfl := eq_wireFrame_of_encodeResponse_raw h
  have hkey := key_mem_candidates c (body dev opc pay) key
  exact ⟨_, _, recoverPkt_wireFrame .., recoverResponse_cand_of_mem hkey, hkey⟩

end Sys2Proof.Machine
end

section
/-! PROOFS. The parts of the CRC family (40_checksum.md R67 to R69): the reflections and the final step are bijections,
and the shifts are linear over GF(2), so that a step carries the difference of two accumulators through unchanged by
the byte. -/

namespace Sys2Proof.Machine

/-- R67: bit `i` of the reflection is the bit as far from the other end. -/
theorem getLsbD_reverse_of_lt {w : Nat} (x : BitVec w) {i : Nat} (h : i < w) :
    x.reverse.getLsbD i = x.getLsbD (w - 1 - i) := by
  rw [BitVec.getLsbD_reverse, BitVec.getMsbD_eq_getLsbD, decide_eq_true h, Bool.true_and]

theorem reverse_involutive (w : Nat) : Function.Involutive (BitVec.reverse : BitVec w → BitVec w) := by
  intro x
  apply BitVec.eq_of_getLsbD_eq
  intro i hi
  have hback : w - 1 - (w - 1 - i) = i := by omega
  rw [getLsbD_reverse_of_lt _ hi, getLsbD_reverse_of_lt _ (by omega), hback]

theorem reflect8_involutive : Function.Involutive reflect8 := reverse_involutive 8

theorem reflect16_involutive : Function.Involutive reflect16 := reverse_involutive 16

/-- Settles O10: the bits of a reflection, and its inverse. -/
theorem reflectReversesBits : Obligations.ReflectReversesBits :=
  ⟨fun b _ h => getLsbD_reverse_of_lt b h, fun v _ h => getLsbD_reverse_of_lt v h, reflect8_involutive,
    reflect16_involutive⟩

theorem crcInput_injective (p : CrcParams) : Function.Injective (crcInput p) := by
  intro x y h
  unfold crcInput at h
  split at h
  · exact reflect8_involutive.injective h
  · exact h

/-- R69: `CK_FIN` loses nothing: it reflects or not, then XORs a constant. -/
theorem crcFin_bijective (p : CrcParams) : Function.Bijective (crcFin p) := by
  have hreflect : Function.Bijective fun acc => if p.refOut then reflect16 acc else acc := by
    cases p.refOut
    · exact Function.bijective_id
    · exact reflect16_involutive.bijective
  have hfin : crcFin p = (p.xorOut ^^^ ·) ∘ fun acc => if p.refOut then reflect16 acc else acc :=
    funext fun acc => BitVec.xor_comm ..
  exact hfin ▸ (Equiv.xor p.xorOut).bijective.comp hreflect

/-- Settles O12: the formula of R69, which is the model's, and the bijection. -/
theorem crcFinalStepIsBijective : Obligations.CrcFinalStepIsBijective := fun p => ⟨fun _ => rfl, crcFin_bijective p⟩

/-! ### The shifts -/

theorem crcShifts_eq_iterate (poly : Word) (n : Nat) (a : Word) : crcShifts poly n a = (crcShift poly)^[n] a := by
  induction n generalizing a with
  | zero => rfl
  | succ n ih => exact ih (crcShift poly a)

theorem crcShifts_add (poly : Word) (m n : Nat) (a : Word) :
    crcShifts poly (m + n) a = crcShifts poly m (crcShifts poly n a) := by
  simp only [crcShifts_eq_iterate, Function.iterate_add_apply]

theorem shiftLeft_eq_ofNat {w : Nat} (x : BitVec w) (n : Nat) : x <<< n = BitVec.ofNat w (2 ^ n * x.toNat) := by
  apply BitVec.eq_of_toNat_eq
  rw [BitVec.toNat_shiftLeft, BitVec.toNat_ofNat, Nat.shiftLeft_eq, Nat.mul_comm]

/-- R68: one shift in numbers. -/
theorem crcShift_eq (poly a : Word) :
    crcShift poly a =
      if 32768 ≤ a.toNat then BitVec.ofNat 16 (2 * a.toNat) ^^^ poly else BitVec.ofNat 16 (2 * a.toNat) := by
  have hmsb : a.msb = true ↔ 32768 ≤ a.toNat := by rw [BitVec.msb_eq_decide, decide_eq_true_iff]
  simp only [crcShift, hmsb, shiftLeft_eq_ofNat, Nat.pow_one]

/-- Settles O11: each shift in numbers, eight of them, on the accumulator with the byte on top. -/
theorem crcStepIsEightShifts : Obligations.CrcStepIsEightShifts := by
  intro p acc b
  have hbyte : (crcInput p b).zeroExtend 16 <<< 8 = BitVec.ofNat 16 (256 * (crcInput p b).toNat) := by
    rw [shiftLeft_eq_ofNat, BitVec.toNat_setWidth_of_le (by decide)]
    norm_num
  rw [crcStep, hbyte, crcShifts_eq_iterate, funext (crcShift_eq p.poly)]
  rfl

/-- R68: a shift doubles the register and XORs in the polynomial or nothing. -/
theorem crcShift_eq_xor (poly a : Word) : crcShift poly a = a <<< 1 ^^^ if a.msb then poly else 0#16 := by
  unfold crcShift
  split
  · rfl
  · exact BitVec.xor_zero.symm

/-- R68: a shift is linear over GF(2): what is XORed in depends on the XOR of the two bits tested. -/
theorem crcShift_xor (poly a d : Word) : crcShift poly (a ^^^ d) = crcShift poly a ^^^ crcShift poly d := by
  have hpoly : (if (a ^^^ d).msb then poly else 0#16) =
      (if a.msb then poly else 0#16) ^^^ if d.msb then poly else 0#16 := by
    rw [BitVec.msb_xor]
    cases a.msb <;> cases d.msb <;> simp
  simp only [crcShift_eq_xor, hpoly, BitVec.shiftLeft_xor_distrib]
  ac_rfl

theorem crcShifts_xor (poly : Word) (n : Nat) (a d : Word) :
    crcShifts poly n (a ^^^ d) = crcShifts poly n a ^^^ crcShifts poly n d := by
  induction n generalizing a d with
  | zero => rfl
  | succ n ih => rw [crcShifts, crcShift_xor, ih]; rfl

/-- Settles O14: the byte is XORed in before the shifts, which are linear. -/
theorem crcStepCarriesDifferences : Obligations.CrcStepCarriesDifferences := by
  intro p a d b
  rw [crcStep, BitVec.xor_assoc, BitVec.xor_comm d, ← BitVec.xor_assoc, crcShifts_xor]
  rfl

end Sys2Proof.Machine
end

section
/-! PROOFS. The key in the CRC family (40_checksum.md R78): two steps are sixteen shifts of the accumulator XORed with
the two bytes as one word, and a shift loses nothing exactly for an odd polynomial. -/

namespace Sys2Proof.Machine

/-- R68: while bit 15 is 0, a shift only doubles. -/
theorem toNat_crcShift_of_msb_false (poly : Word) {a : Word} (h : a.msb = false) :
    (crcShift poly a).toNat = 2 * a.toNat := by
  have hlt : 2 * a.toNat < 65536 := BitVec.msb_eq_false_iff_two_mul_lt.mp h
  rw [crcShift_eq, if_neg (by omega), BitVec.toNat_ofNat, Nat.mod_eq_of_lt hlt]

/-- R68: while no bit reaches bit 15, the shifts only double. -/
theorem toNat_crcShifts_of_lt (poly : Word) {n : Nat} {a : Word} (h : 2 ^ n * a.toNat < 65536) :
    (crcShifts poly n a).toNat = 2 ^ n * a.toNat := by
  induction n generalizing a with
  | zero => exact (Nat.one_mul _).symm
  | succ n ih =>
    have hle : 2 * a.toNat ≤ 2 ^ (n + 1) * a.toNat := Nat.mul_le_mul_right _ (Nat.le_self_pow n.succ_ne_zero 2)
    have hmsb : a.msb = false := BitVec.msb_eq_false_iff_two_mul_lt.mpr (hle.trans_lt h)
    rw [pow_succ, Nat.mul_assoc, ← toNat_crcShift_of_msb_false poly hmsb] at h ⊢
    exact ih h

/-- R5: two bytes as one word, the first one on top. -/
theorem append_eq_xor (x y : Byte) : x ++ y = (x.zeroExtend 16 <<< 8) ^^^ y.zeroExtend 16 := by
  apply BitVec.eq_of_getLsbD_eq
  intro i hi
  simp only [BitVec.getLsbD_append, BitVec.getLsbD_xor, BitVec.getLsbD_shiftLeft, BitVec.getLsbD_setWidth]
  by_cases hlow : i < 8
  · simp [hlow, hi]
  · have hx : i - 8 < 16 := by omega
    have hy : y.getLsbD i = false := BitVec.getLsbD_of_ge y i (not_lt.mp hlow)
    simp [hlow, hx, hi, hy, -BitVec.getLsbD_eq_getElem]

/-- R78: two steps of the CRC family absorb two bytes as one 16-bit word. The second byte may as well enter before the
first eight shifts, at the bottom of the register: they bring it to the top. -/
theorem crcStep_crcStep (p : CrcParams) (a : Word) (x y : Byte) :
    crcStep p (crcStep p a x) y = crcShifts p.poly 16 (a ^^^ (crcInput p x ++ crcInput p y)) := by
  have hsmall : (crcInput p y).zeroExtend 16 <<< 8 = crcShifts p.poly 8 ((crcInput p y).zeroExtend 16) := by
    have hnat : ((crcInput p y).zeroExtend 16).toNat = (crcInput p y).toNat := BitVec.toNat_setWidth_of_le (by decide)
    have hlt : 2 ^ 8 * ((crcInput p y).zeroExtend 16).toNat < 65536 := by omega
    apply BitVec.eq_of_toNat_eq
    rw [toNat_crcShifts_of_lt p.poly hlt, shiftLeft_eq_ofNat, BitVec.toNat_ofNat, Nat.mod_eq_of_lt hlt]
  rw [crcStep, crcStep, hsmall, ← crcShifts_xor, BitVec.xor_assoc, ← append_eq_xor, ← crcShifts_add]

/-- The two key bytes as they enter the register, the first one on top (R34, R68). -/
def crcKeyInput (p : CrcParams) (o : ByteOrder) (k : Word) : Word :=
  crcInput p (enc16 o k).first ++ crcInput p (enc16 o k).second

/-- R78: what the checksum of the CRC family makes of a key, whatever the accumulator. -/
theorem absorb_enc16_crc (p : CrcParams) (a : Word) (o : ByteOrder) (k : Word) :
    absorb (crcGenerator p) a (enc16 o k).toBytes = crcShifts p.poly 16 (a ^^^ crcKeyInput p o k) :=
  crcStep_crcStep p a (enc16 o k).first (enc16 o k).second

theorem append_bytes_inj {x y x' y' : Byte} (h : x ++ y = x' ++ y') : x = x' ∧ y = y' :=
  ⟨by rw [← hi8_append x y, h, hi8_append], by rw [← lo8_append x y, h, lo8_append]⟩

theorem crcKeyInput_bijective (p : CrcParams) (o : ByteOrder) : Function.Bijective (crcKeyInput p o) := by
  refine Finite.injective_iff_bijective.mp fun k k' h => ?_
  obtain ⟨hfirst, hsecond⟩ := append_bytes_inj h
  have hpair : enc16 o k = enc16 o k' := by
    rw [BytePair.mk.injEq]
    exact ⟨crcInput_injective p hfirst, crcInput_injective p hsecond⟩
  rw [← dec16_enc16 o k, hpair, dec16_enc16]

/-- R68: after a shift, bit 0 is what the polynomial put there. -/
theorem getLsbD_zero_crcShift (poly a : Word) : (crcShift poly a).getLsbD 0 = (a.msb && poly.getLsbD 0) := by
  rw [crcShift_eq_xor]
  cases a.msb <;> simp

/-- R78: with an odd polynomial bit 0 tells whether bit 15 was lost, so only 0 is shifted to 0. -/
theorem eq_zero_of_crcShift_eq_zero {poly a : Word} (hodd : poly.getLsbD 0 = true) (h : crcShift poly a = 0#16) :
    a = 0#16 := by
  have hmsb : a.msb = false := by
    have hbit := getLsbD_zero_crcShift poly a
    rw [h, hodd, Bool.and_true] at hbit
    exact hbit.symm
  have hdouble := toNat_crcShift_of_msb_false poly hmsb
  apply BitVec.eq_of_toNat_eq
  rw [h, BitVec.toNat_zero] at hdouble
  rw [BitVec.toNat_zero]
  omega

/-- R78: a shift is invertible exactly when the polynomial is odd; an even one never sets bit 0. -/
theorem crcShift_bijective_iff (poly : Word) : Function.Bijective (crcShift poly) ↔ poly.getLsbD 0 = true := by
  constructor
  · intro h
    obtain ⟨a, ha⟩ := h.surjective 1#16
    have hbit := getLsbD_zero_crcShift poly a
    rw [ha] at hbit
    exact (Bool.and_eq_true_iff.mp hbit.symm).2
  · intro hodd
    refine Finite.injective_iff_bijective.mp fun a b h => ?_
    have hzero : crcShift poly (a ^^^ b) = 0#16 := by rw [crcShift_xor, h, BitVec.xor_self]
    exact BitVec.xor_eq_zero_iff.mp (eq_zero_of_crcShift_eq_zero hodd hzero)

/-- R78: any number of shifts but none is invertible exactly when the polynomial is odd. -/
theorem crcShifts_bijective_iff (poly : Word) (n : Nat) :
    Function.Bijective (crcShifts poly (n + 1)) ↔ poly.getLsbD 0 = true := by
  rw [← crcShift_bijective_iff, funext (crcShifts_eq_iterate poly (n + 1))]
  constructor
  · intro h
    exact Finite.injective_iff_bijective.mp h.injective.of_comp
  · exact fun h => h.iterate (n + 1)

/-- Settles O15: the key enters, is XORed to the accumulator and finished by bijections; between them stand sixteen
shifts. -/
theorem crcKeyMapIsBijectiveIffOdd : Obligations.CrcKeyMapIsBijectiveIffOdd := by
  intro p a o
  have henter : Function.Bijective fun k => a ^^^ crcKeyInput p o k :=
    (Equiv.xor a).bijective.comp (crcKeyInput_bijective p o)
  have hmap : (fun k : Word => crcFin p (absorb (crcGenerator p) a (enc16 o k).toBytes)) =
      crcFin p ∘ crcShifts p.poly 16 ∘ fun k => a ^^^ crcKeyInput p o k :=
    funext fun k => congrArg (crcFin p) (absorb_enc16_crc p a o k)
  rw [hmap, Function.Bijective.of_comp_iff' (crcFin_bijective p), Function.Bijective.of_comp_iff _ henter,
    crcShifts_bijective_iff]

end Sys2Proof.Machine
end

section
/-! PROOFS. `CKSUM` (40_checksum.md R65, R66, R74, R75, R77): the checksum at its three levels, how it composes, and the
operation's response. -/

namespace Sys2Proof.Machine

/-- R77: the bytes of a concatenation are absorbed part by part. -/
theorem absorb_append (g : Generator) (a : Word) (s t : Bytes) : absorb g a (s ++ t) = absorb g (absorb g a s) t :=
  List.foldl_append

/-- Settles O13: the three levels and the empty sequence are the model's definitions; the rest is `absorb_append`. -/
theorem checksumComposes : Obligations.ChecksumComposes :=
  ⟨fun _ _ => rfl, fun _ _ => rfl, fun _ _ => rfl, fun g => ⟨rfl, absorb_append g, fun d x y =>
    congrArg g.fin (absorb_append g g.init d [x, y])⟩⟩

/-- Settles O16: every operation completes (`exec_eq`), and the response of `CKSUM` is written out by its definition. -/
theorem cksumCompletes : Obligations.CksumCompletes := ⟨fun dat s => exec_eq (.cksum dat) s, fun _ _ => rfl⟩

end Sys2Proof.Machine
end

section
/-! PROOFS. `ENCODE`, `DECODE` and `VERIFY` one by one (41_framer.md R80 to R89): what each answers in each case, and that
each completes with it. The frames `DECODE` accepts are the wire frames of a listed opcode and payload length, whatever
their checksum bytes. -/

namespace Sys2Proof.Machine

/-! ### The wire frame -/

theorem exists_entry_iff_mem {table : List FrameEntry} {opc pay : Bytes} :
    (∃ e ∈ table, e.opcode = opc ∧ e.payLen = pay.length) ↔ FrameEntry.mk opc pay.length ∈ table := by
  constructor
  · rintro ⟨⟨_, _⟩, he, rfl, rfl⟩
    exact he
  · exact fun he => ⟨_, he, rfl, rfl⟩

/-- R51: `match_fields` holds when the entry of the opcode and the payload's length is in the table. -/
theorem matchFields_iff_mem {table : List FrameEntry} {opc pay : Bytes} :
    matchFields table opc pay = true ↔ FrameEntry.mk opc pay.length ∈ table :=
  matchFields_iff.trans exists_entry_iff_mem

/-- R49: every byte pair is the checksum bytes of some value, so a body and any two bytes are a wire frame. -/
theorem wireFrame_dec16 (c : Cfg) (dev : Byte) (opc pay : Bytes) (p : BytePair) :
    wireFrame c dev opc pay (dec16 c.ckOrder p) = [dev] ++ opc ++ pay ++ p.toBytes := by
  rw [wireFrame, enc16_dec16, body]

theorem toBytes_inj {p q : BytePair} : p.toBytes = q.toBytes ↔ p = q := by
  cases p
  cases q
  simp [BytePair.toBytes]

theorem enc16_inj {o : ByteOrder} {v w : Word} : enc16 o v = enc16 o w ↔ v = w :=
  (Function.LeftInverse.injective (dec16_enc16 o)).eq_iff

/-- R45: a sequence that ends in two bytes is a wire frame exactly when the rest is the body and the two are the
checksum bytes. -/
theorem append_toBytes_eq_wireFrame_iff {c : Cfg} {d : Bytes} {p : BytePair} {dev : Byte} {opc pay : Bytes}
    {ck : Word} : d ++ p.toBytes = wireFrame c dev opc pay ck ↔ d = body dev opc pay ∧ p = enc16 c.ckOrder ck := by
  constructor
  · intro h
    obtain ⟨hd, hp⟩ := List.append_inj' h rfl
    exact ⟨hd, toBytes_inj.mp hp⟩
  · rintro ⟨rfl, rfl⟩
    rfl

/-- R49: of one body, the frame determines the checksum. -/
theorem wireFrame_inj {c : Cfg} {dev : Byte} {opc pay : Bytes} {ck ck' : Word} :
    wireFrame c dev opc pay ck = wireFrame c dev opc pay ck' ↔ ck = ck' :=
  (append_toBytes_eq_wireFrame_iff.trans (and_iff_right rfl)).trans enc16_inj

/-- R45: all but the last two bytes of a frame are the body. -/
theorem take_wireFrame (c : Cfg) (dev : Byte) (opc pay : Bytes) (ck : Word) :
    (wireFrame c dev opc pay ck).take (opc.length + pay.length + 1) = body dev opc pay := by
  rw [← length_body dev opc pay]
  exact List.take_left

/-! ### `ENCODE` -/

theorem encodeResponse_of_mem {c : Cfg} {opc pay : Bytes} (h : FrameEntry.mk opc pay.length ∈ c.frameTable)
    (dev : Byte) (key : Word) :
    encodeResponse c dev opc pay key =
      encodeResult c dev opc pay (checksum c.checksum (withKey c (body dev opc pay) key)) :=
  if_pos (matchFields_iff_mem.mpr h)

theorem encodeResponse_of_not_mem {c : Cfg} {opc pay : Bytes} (h : FrameEntry.mk opc pay.length ∉ c.frameTable)
    (dev : Byte) (key : Word) :
    encodeResponse c dev opc pay key = errorResponse 0b001#3 .invalidPayloadLength :=
  if_neg (mt matchFields_iff_mem.mp h)

/-- Settles O17: every operation completes (`exec_eq`), and the entry the two cases of `ENCODE` ask for is the one the
condition names. -/
theorem encodeCompletes : Obligations.EncodeCompletes := by
  refine ⟨fun dev opc pay key s => exec_eq (.encode dev opc pay key) s, fun c dev opc pay key => ?_⟩
  split
  next h => exact encodeResponse_of_mem (exists_entry_iff_mem.mp h) dev key
  next h => exact encodeResponse_of_not_mem (mt exists_entry_iff_mem.mpr h) dev key

/-- Settles O18: the listed case of `ENCODE`, under any configuration and under the machine's own. -/
theorem encodeBuildsTheFrame : Obligations.EncodeBuildsTheFrame := by
  refine fun dev opc pay key => ⟨fun c h => encodeResponse_of_mem h dev key, fun s h => ?_⟩
  rw [exec_eq, response, encodeResponse_of_mem h]
  rfl

/-- Settles O19: a listed opcode ends with `ERR = 0`, an unlisted one with the error. -/
theorem encodeRejectsUnknownFraming : Obligations.EncodeRejectsUnknownFraming := by
  refine fun c dev opc pay key => ⟨fun herr h => ?_, fun h => encodeResponse_of_not_mem h dev key⟩
  have hok : (response c (.encode dev opc pay key)).err = some 0#3 :=
    congrArg Response.err (encodeResponse_of_mem h dev key)
  rw [herr] at hok
  simp at hok

/-! ### `DECODE` -/

/-- The response of a `DECODE` that finds these fields (R84). -/
def decodedFields (dev : Byte) (opc pay : Bytes) (ck : Word) : Response :=
  { okResponse 0b010#3 with dev := some dev, opc := some opc, pay := some pay, ck := some ck }

/-- R84: an entry that accounts for the undivided rest divides it after its opcode. -/
theorem decodeResult_of_accountsFor {e : FrameEntry} {f : FrameParts} (h : e.accountsFor f.rest) (c : Cfg) :
    decodeResult c f e =
      decodedFields f.dev (f.rest.take e.opcode.length) (f.rest.drop e.opcode.length) (dec16 c.ckOrder f.ck) := by
  obtain ⟨hlen, -⟩ := h
  have hpay : memRead f.rest e.opcode.length e.payLen = f.rest.drop e.opcode.length := by
    refine List.take_of_length_le ?_
    rw [List.length_drop]
    omega
  rw [decodeResult, hpay]
  rfl

theorem decodeResponse_of_splitFrame_none {c : Cfg} {raw : Bytes} (h : splitFrame raw = none) :
    decodeResponse c raw = errorResponse 0b010#3 .invalidPayloadLength := by
  simp only [decodeResponse, h]

theorem decodeResponse_of_matchRest_none {c : Cfg} {raw : Bytes} {f : FrameParts} (hf : splitFrame raw = some f)
    (h : matchRest c.frameTable f.rest = none) :
    decodeResponse c raw = errorResponse 0b010#3 .invalidPayloadLength := by
  simp only [decodeResponse, hf, h]

/-- R84: the entry `match_rest` finds divides the frame. -/
theorem decodeResponse_of_matchRest {c : Cfg} {raw : Bytes} {f : FrameParts} {e : FrameEntry}
    (hf : splitFrame raw = some f) (h : matchRest c.frameTable f.rest = some e) :
    decodeResponse c raw =
      decodedFields f.dev (f.rest.take e.opcode.length) (f.rest.drop e.opcode.length) (dec16 c.ckOrder f.ck) := by
  rw [← decodeResult_of_accountsFor (accountsFor_of_matchRest h)]
  simp only [decodeResponse, hf, h]

/-- Settles O20: every operation completes (`exec_eq`), and the entry `match_rest` finds divides the rest of the
frame. -/
theorem decodeCompletes : Obligations.DecodeCompletes := by
  refine ⟨fun raw s => exec_eq (.decode raw) s, fun c raw => ?_⟩
  show decodeResponse c raw = _
  cases hf : splitFrame raw with
  | none => exact decodeResponse_of_splitFrame_none hf
  | some f =>
    cases hm : matchRest c.frameTable f.rest with
    | none =>
      simp only [hm]
      exact decodeResponse_of_matchRest_none hf hm
    | some e =>
      simp only [hm]
      exact decodeResponse_of_matchRest hf hm

/-- R47: the three parts of a frame, joined, are the frame. -/
theorem eq_of_splitFrame {raw : Bytes} {f : FrameParts} (h : splitFrame raw = some f) :
    raw = [f.dev] ++ f.rest ++ f.ck.toBytes := by
  obtain ⟨hshort, hframe⟩ := frameSplitsIntoThreeParts raw
  obtain hlt | hge := Nat.lt_or_ge raw.length 3
  · cases (hshort hlt).symm.trans h
  · obtain ⟨f', hf', hraw⟩ := hframe hge
    obtain rfl : f' = f := Option.some_inj.mp (hf'.symm.trans h)
    exact hraw

theorem splitFrame_wireFrame (c : Cfg) (dev : Byte) (opc pay : Bytes) (ck : Word) :
    splitFrame (wireFrame c dev opc pay ck) =
      some { dev := dev, rest := opc ++ pay, ck := enc16 c.ckOrder ck } := by
  rw [wireFrame, body, List.append_assoc [dev] opc pay]
  exact splitFrame_parts dev (opc ++ pay) _ _

/-- R84, R52: under a well-formed table a frame of a listed opcode is divided as it was joined. -/
theorem decodeResponse_wireFrame {c : Cfg} (hc : c.legal = true) {opc pay : Bytes}
    (h : FrameEntry.mk opc pay.length ∈ c.frameTable) (dev : Byte) (ck : Word) :
    decodeResponse c (wireFrame c dev opc pay ck) = decodedFields dev opc pay ck := by
  have hm := matchRest_append_of_matchFields (Cfg.legal_table hc) (matchFields_iff_mem.mpr h)
  rw [decodeResponse_of_matchRest (splitFrame_wireFrame ..) hm]
  simp

/-- R85, R95: under any table a frame of a listed opcode is divided by some entry. -/
theorem decodeResponse_wireFrame_err {c : Cfg} {opc pay : Bytes} (h : FrameEntry.mk opc pay.length ∈ c.frameTable)
    (dev : Byte) (ck : Word) : (decodeResponse c (wireFrame c dev opc pay ck)).err = some 0#3 := by
  cases hm : matchRest c.frameTable (opc ++ pay) with
  | none => exact absurd (FrameEntry.accountsFor_append _ rfl) (not_accountsFor_of_matchRest_none hm h)
  | some e =>
    rw [decodeResponse_of_matchRest (splitFrame_wireFrame ..) hm]
    rfl

/-- R84, R85: `DECODE` ends with `InvalidPayloadLength`, or its sequence is a wire frame of a listed opcode and it
answers the fields of that frame. -/
theorem decodeResponse_error_or_fields (c : Cfg) (raw : Bytes) :
    decodeResponse c raw = errorResponse 0b010#3 .invalidPayloadLength ∨
      ∃ dev opc pay ck, FrameEntry.mk opc pay.length ∈ c.frameTable ∧ raw = wireFrame c dev opc pay ck ∧
        decodeResponse c raw = decodedFields dev opc pay ck := by
  obtain herr | ⟨⟨dev, rest, p⟩, ⟨opc, m⟩, hf, hm, -⟩ := decodeResponse_cases c raw
  · exact .inl herr
  · refine .inr ?_
    obtain ⟨hmem, -⟩ := matchRest_some hm
    have hr := decodeResponse_of_matchRest hf hm
    obtain ⟨hlen, pay, rfl⟩ := accountsFor_of_matchRest hm
    obtain rfl : m = pay.length := by simpa using hlen
    have hraw : raw = [dev] ++ (opc ++ pay) ++ p.toBytes := eq_of_splitFrame hf
    refine ⟨dev, opc, pay, dec16 c.ckOrder p, hmem, ?_, by simpa using hr⟩
    rw [hraw, wireFrame_dec16, List.append_assoc [dev] opc pay]

/-- Settles O21: such a frame is the wire frame of the value of its last two bytes. -/
theorem decodeSplitsTheFrame : Obligations.DecodeSplitsTheFrame := by
  rintro c ⟨opc, _⟩ dev pay a b hc he rfl
  have h := decodeResponse_wireFrame hc he dev (dec16 c.ckOrder ⟨a, b⟩)
  rwa [wireFrame_dec16] at h

/-- Settles O22: the two cases of `DECODE`, and `decodeResponse_wireFrame_err` for the converse. -/
theorem decodeSucceedsExactlyOnFrames : Obligations.DecodeSucceedsExactlyOnFrames := by
  refine fun c raw => ⟨⟨fun hok => ?_, ?_⟩, fun herr => ?_⟩
  · obtain h | ⟨dev, opc, pay, ck, hmem, hraw, -⟩ := decodeResponse_error_or_fields c raw
    · rw [response, h] at hok
      cases hok
    · exact ⟨dev, _, pay, _, _, hmem, rfl, hraw⟩
  · rintro ⟨dev, ⟨opc, _⟩, pay, a, b, hmem, rfl, rfl⟩
    have h := decodeResponse_wireFrame_err hmem dev (dec16 c.ckOrder ⟨a, b⟩)
    rwa [wireFrame_dec16] at h
  · obtain h | ⟨dev, opc, pay, ck, -, -, h⟩ := decodeResponse_error_or_fields c raw
    · exact h
    · exact absurd (congrArg Response.err h) herr

/-- Settles O23: the last two bytes go into the checksum part of the frame, which `match_rest` does not see. -/
theorem decodeIgnoresTheChecksum : Obligations.DecodeIgnoresTheChecksum := by
  intro c d a b a' b'
  show { decodeResponse c (d ++ [a, b]) with ck := none } = { decodeResponse c (d ++ [a', b']) with ck := none }
  cases d with
  | nil => rfl
  | cons dev rest =>
    have hf : ∀ a b, splitFrame (dev :: rest ++ [a, b]) = some ⟨dev, rest, ⟨a, b⟩⟩ := splitFrame_parts dev rest
    cases hm : matchRest c.frameTable rest with
    | none => rw [decodeResponse_of_matchRest_none (hf a b) hm, decodeResponse_of_matchRest_none (hf a' b') hm]
    | some e =>
      rw [decodeResponse_of_matchRest (hf a b) hm, decodeResponse_of_matchRest (hf a' b') hm]
      rfl

/-! ### `VERIFY` -/

/-- R88: `MATCH` compares the two 16-bit values. -/
theorem verifyResponse_matched (c : Cfg) (dev : Byte) (opc pay : Bytes) (ck key : Word) :
    (verifyResponse c dev opc pay ck key).matched =
      some (decide (checksum c.checksum (withKey c (body dev opc pay) key) = ck)) := rfl

/-- R88: the body of `OPC` and `PAY` is that of their concatenation. -/
theorem body_congr {dev : Byte} {opc pay opc' pay' : Bytes} (h : opc ++ pay = opc' ++ pay') :
    body dev opc pay = body dev opc' pay' := congrArg (dev :: ·) h

/-- Settles O24: every operation completes (`exec_eq`), and `VERIFY` has one response, with `ERR = 0`. -/
theorem verifyCompletes : Obligations.VerifyCompletes :=
  ⟨fun dev opc pay ck key s => exec_eq (.verify dev opc pay ck key) s, fun _ _ _ _ _ _ => rfl⟩

/-- Settles O25: the checksum input is the body, which is that of the concatenation, and the key in `KEY_ORDER`. -/
theorem verifySeesOnlyTheConcatenation : Obligations.VerifySeesOnlyTheConcatenation := by
  intro c c' dev opc pay opc' pay' ck key hck hkey h
  show verifyResponse c dev opc pay ck key = verifyResponse c' dev opc' pay' ck key
  rw [verifyResponse, verifyResponse, withKey, withKey, hck, hkey, body_congr h]

end Sys2Proof.Machine
end

section
/-! PROOFS. The laws of the framer (41_framer.md R82, R90 to R94) and `VERIFY_RAW` (30_encoding.md R62): how `ENCODE`,
`DECODE` and `VERIFY` go together. -/

namespace Sys2Proof.Machine

/-! ### From a frame `ENCODE` built -/

/-- R80, R81: `ENCODE` answers a frame only where the table lists its opcode. -/
theorem mem_of_encodeResponse_raw {c : Cfg} {dev : Byte} {opc pay raw : Bytes} {key : Word}
    (h : (encodeResponse c dev opc pay key).raw = some raw) : FrameEntry.mk opc pay.length ∈ c.frameTable := by
  by_contra hmem
  rw [encodeResponse_of_not_mem hmem] at h
  cases h

/-- R92: `DECODE` of a frame `ENCODE` built gives its operands back, with the checksum it was built with. -/
theorem decodeResponse_of_encodeResponse_raw {c : Cfg} (hc : c.legal = true) {dev : Byte} {opc pay raw : Bytes}
    {key : Word} (h : (encodeResponse c dev opc pay key).raw = some raw) :
    decodeResponse c raw =
      decodedFields dev opc pay (checksum c.checksum (withKey c (body dev opc pay) key)) := by
  rw [eq_wireFrame_of_encodeResponse_raw h]
  exact decodeResponse_wireFrame hc (mem_of_encodeResponse_raw h) dev _

/-- Settles O27: a built frame is the wire frame of its operands, which a well-formed table divides as it was joined. -/
theorem decodeOfBuiltFrame : Obligations.DecodeOfBuiltFrame := fun _ _ _ _ _ _ hc h =>
  decodeResponse_of_encodeResponse_raw hc h

theorem verifyOfDecoded_decodedFields (dev : Byte) (opc pay : Bytes) (ck key : Word) :
    verifyOfDecoded (decodedFields dev opc pay ck) key = some (.verify dev opc pay ck key) := rfl

theorem verifyOfDecoded_invalidPayloadLength (op : BitVec 3) (key : Word) :
    verifyOfDecoded (errorResponse op .invalidPayloadLength) key = none := rfl

/-- Settles O28: the decoded checksum is the one `VERIFY` computes again. -/
theorem builtFrameVerifies : Obligations.BuiltFrameVerifies := by
  intro c dev opc pay raw key hc h
  refine ⟨.verify dev opc pay (checksum c.checksum (withKey c (body dev opc pay) key)) key, ?_, rfl, ?_⟩
  · rw [response, decodeResponse_of_encodeResponse_raw hc h, verifyOfDecoded_decodedFields]
  · rw [response, verifyResponse_matched, decide_eq_true rfl]

/-- Settles O31: without an entry both keys end with the error; with one, both frames are wire frames of one body. -/
theorem keyReachesOnlyTheChecksumBytes : Obligations.KeyReachesOnlyTheChecksumBytes := by
  refine fun c dev opc pay key key' => ⟨?_, fun raw raw' h h' => ?_⟩
  · show (encodeResponse c dev opc pay key).err = (encodeResponse c dev opc pay key').err
    by_cases hmem : FrameEntry.mk opc pay.length ∈ c.frameTable
    · rw [encodeResponse_of_mem hmem, encodeResponse_of_mem hmem]
      rfl
    · rw [encodeResponse_of_not_mem hmem, encodeResponse_of_not_mem hmem]
  · obtain rfl := eq_wireFrame_of_encodeResponse_raw h
    obtain rfl := eq_wireFrame_of_encodeResponse_raw h'
    rw [length_wireFrame, length_wireFrame]
    exact ⟨rfl, rfl, take_wireFrame .., take_wireFrame ..⟩

/-! ### From a frame `DECODE` accepts -/

/-- R62, R84: `VERIFY_RAW` comes to its `VERIFY` only on a wire frame of a listed opcode, with the fields of that
frame. -/
theorem exists_fields_of_verifyOfDecoded {c : Cfg} {raw : Bytes} {key : Word} {v : Instr}
    (h : verifyOfDecoded (decodeResponse c raw) key = some v) :
    ∃ dev opc pay ck, FrameEntry.mk opc pay.length ∈ c.frameTable ∧ raw = wireFrame c dev opc pay ck ∧
      decodeResponse c raw = decodedFields dev opc pay ck ∧ v = .verify dev opc pay ck key := by
  obtain herr | ⟨dev, opc, pay, ck, hmem, hraw, hr⟩ := decodeResponse_error_or_fields c raw
  · rw [herr, verifyOfDecoded_invalidPayloadLength] at h
    cases h
  · rw [hr, verifyOfDecoded_decodedFields] at h
    exact ⟨dev, opc, pay, ck, hmem, hraw, hr, (Option.some_inj.mp h).symm⟩

/-- R62: `VERIFY_RAW` comes to its `VERIFY` exactly when `DECODE` succeeds. -/
theorem decodeResponse_err_iff_verifyOfDecoded_isSome (c : Cfg) (raw : Bytes) (key : Word) :
    (decodeResponse c raw).err = some 0#3 ↔ (verifyOfDecoded (decodeResponse c raw) key).isSome := by
  obtain h | ⟨dev, opc, pay, ck, -, -, h⟩ := decodeResponse_error_or_fields c raw
  · rw [h, verifyOfDecoded_invalidPayloadLength]
    exact iff_of_false (by simp [errorResponse_eq, ErrorName.code_ne_zero]) Bool.false_ne_true
  · rw [h, verifyOfDecoded_decodedFields]
    exact iff_of_true rfl rfl

/-- Settles O29: both frames have one body, so they are one frame exactly when their checksums are one. -/
theorem rebuiltFrameIsTheFrameIffVerified : Obligations.RebuiltFrameIsTheFrameIffVerified := by
  intro c raw key dev opc pay ck h
  obtain ⟨_, _, _, _, hmem, rfl, -, hv⟩ := exists_fields_of_verifyOfDecoded h
  cases hv
  have henc := encodeResponse_of_mem hmem dev key
  refine ⟨wireFrame c dev opc pay (checksum c.checksum (withKey c (body dev opc pay) key)),
    congrArg Response.err henc, congrArg Response.raw henc, ?_, ?_, ?_⟩
  · rw [length_wireFrame, length_wireFrame]
  · rw [length_wireFrame]
    exact (take_wireFrame ..).trans (take_wireFrame ..).symm
  · rw [wireFrame_inj, response, verifyResponse_matched, Option.some_inj, decide_eq_true_iff]

/-- R62, R90: `VERIFY_RAW` on an idle block that admits its `DECODE` leaves the response of the last operation it
comes to. -/
theorem verifyRaw_of_idle {raw : Bytes} {key : Word} {s : State} (hs : s.run = none)
    (hadm : admits cfg (.decode raw) = true) :
    verifyRaw raw key s =
      .next (s.complete (((verifyOfDecoded (decodeResponse cfg raw) key).map (response cfg)).getD
        (decodeResponse cfg raw))) := by
  simp only [verifyRaw, hs, hadm, Option.isNone_none, Bool.and_self, if_true, exec_eq, response,
    State.complete_rsp]
  cases verifyOfDecoded (decodeResponse cfg raw) key <;> rfl

/-- Settles O30: `MATCH` by the parts of the wire frame, the fields by the cases of `DECODE`, and the two steps. -/
theorem verifyRawNeedsNoTable : Obligations.VerifyRawNeedsNoTable := by
  refine ⟨fun c d a b key => ⟨decodeResponse_err_iff_verifyOfDecoded_isSome c _ key, fun v h => ?_⟩,
    fun c raw key v h => ?_, fun raw key s => ⟨fun hs hadm => ?_, fun hstay => ?_⟩⟩
  · obtain ⟨dev, opc, pay, ck, -, hraw, -, rfl⟩ := exists_fields_of_verifyOfDecoded h
    obtain ⟨rfl, hck⟩ := (append_toBytes_eq_wireFrame_iff (p := ⟨a, b⟩)).mp hraw
    rw [hck, dec16_enc16]
    exact verifyResponse_matched ..
  · obtain ⟨dev, opc, pay, ck, -, -, hr, hv⟩ := exists_fields_of_verifyOfDecoded h
    exact ⟨dev, opc, pay, ck, hv, hr⟩
  · rw [verifyRaw_of_idle hs hadm, response]
    cases verifyOfDecoded (decodeResponse cfg raw) key <;> rfl
  · have hno : ¬ (s.run.isNone && admits cfg (.decode raw)) = true := by
      obtain hbusy | hlong := hstay
      · simp [Option.isSome_iff_ne_none.mp hbusy]
      · simp [hlong]
    exact if_neg hno

/-! ### A wrong key -/

/-- The byte sum of R70 with the table of R53. -/
def byteSumCfg : Cfg :=
  { checksum := .iterative sum16, ckOrder := .msbFirst, keyOrder := .msbFirst, frameTable := frameTableRef
    bufMax := none }

/-- Settles O32: the byte sum of MM's example does not change when the two key bytes are exchanged. -/
theorem wrongKeyCanVerify : Obligations.WrongKeyCanVerify :=
  ⟨byteSumCfg, 0x01, [0x87, 0x05], [0x03, 0x01, 0x9A, 0x00, 0x00], 0x012E, 0x0102, 0x0201, by decide, by decide,
    by decide, by decide⟩

end Sys2Proof.Machine
end

section
/-! PROOFS. `RECOVER` (42_key_recovery.md R100 to R107): its response in each case, the key a packet was built under
among its candidates, and the candidates in the CRC family and for the byte sum, where the data drops out. -/

namespace Sys2Proof.Machine

/-! ### The response -/

theorem candidates_pairwise (c : Cfg) (dat : Bytes) (obs : BytePair) : (candidates c dat obs).Pairwise (· < ·) :=
  candidatesBelow_pairwise c dat (dec16 c.ckOrder obs) le_rfl

/-- R100: the candidates are the one increasing list of exactly the keys that reproduce the observed checksum. -/
theorem candidates_eq_of_pairwise {c : Cfg} {dat : Bytes} {obs : BytePair} {l : List Word} (hl : l.Pairwise (· < ·))
    (hmem : ∀ k, k ∈ l ↔ checksum c.checksum (withKey c dat k) = dec16 c.ckOrder obs) : candidates c dat obs = l :=
  (candidates_pairwise c dat obs).eq_of_mem_iff hl fun k => mem_candidates.trans (hmem k).symm

/-- Settles O26: every operation completes (`exec_eq`), and the list is that of the candidates, empty or not. -/
theorem recoverCompletes : Obligations.RecoverCompletes := by
  refine ⟨fun dat obs s => exec_eq (.recover dat obs) s, fun c dat obs =>
    ⟨candidates c dat obs, candidates_pairwise c dat obs, fun k => mem_candidates, ?_⟩⟩
  rw [response, recoverResponse]
  split
  next hnil => exact congrArg recoverResult hnil
  next hne => exact recoverResult_of_ne_nil hne

/-- R102, R103: `NoCandidateFound` is the response of the empty list and of no other. -/
theorem recoverResult_eq_noCandidateFound_iff {l : List Word} :
    recoverResult l = errorResponse 0b100#3 .noCandidateFound ↔ l = [] := by
  constructor
  · intro h
    by_contra hne
    rw [recoverResult_of_ne_nil hne] at h
    exact Option.some_ne_none l (congrArg Response.cand h)
  · rintro rfl
    exact recoverResult_nil

/-- Settles O34: the error means an empty list, and a list is empty when no key is in it. -/
theorem noCandidateExactlyWhenNoKeyMatches : Obligations.NoCandidateExactlyWhenNoKeyMatches := fun c dat obs =>
  calc response c (.recover dat obs) = errorResponse 0b100#3 .noCandidateFound
      ↔ candidates c dat obs = [] := recoverResult_eq_noCandidateFound_iff
    _ ↔ ∀ k, k ∉ candidates c dat obs := List.eq_nil_iff_forall_not_mem
    _ ↔ ∀ k, checksum c.checksum (withKey c dat k) ≠ dec16 c.ckOrder obs :=
      forall_congr' fun _ => not_congr mem_candidates

/-! ### A packet built under a key -/

/-- The checksum bytes of a packet of the data `d`, built under `key` (R46, R80). -/
def observed (c : Cfg) (d : Bytes) (key : Word) : BytePair :=
  enc16 c.ckOrder (checksum c.checksum (withKey c d key))

/-- R100: the candidates of a packet are the keys with the checksum of the key it was built under. -/
theorem mem_candidates_observed {c : Cfg} {d : Bytes} {k k' : Word} :
    k' ∈ candidates c d (observed c d k) ↔
      checksum c.checksum (withKey c d k') = checksum c.checksum (withKey c d k) := by
  rw [mem_candidates, observed, dec16_enc16]

/-- R107: with a packet built under some key, `RECOVER` answers its candidates. -/
theorem response_recover_observed_cand (c : Cfg) (d : Bytes) (k : Word) :
    (response c (.recover d (observed c d k))).cand = some (candidates c d (observed c d k)) :=
  recoverResponse_cand_of_mem (key_mem_candidates c d k)

/-- R107: with a packet built under some key, `RECOVER` succeeds. -/
theorem response_recover_observed_err (c : Cfg) (d : Bytes) (k : Word) :
    (response c (.recover d (observed c d k))).err = some 0#3 := by
  have hne : candidates c d (observed c d k) ≠ [] := List.ne_nil_of_mem (key_mem_candidates c d k)
  rw [response, recoverResponse, recoverResult_of_ne_nil hne]
  rfl

/-- Settles O33: the true key reproduces its own checksum, and an increasing list of keys has at most 65,536. -/
theorem trueKeyIsACandidate : Obligations.TrueKeyIsACandidate := fun c d k =>
  ⟨_, response_recover_observed_cand c d k, response_recover_observed_err c d k, key_mem_candidates c d k,
    length_le_of_pairwise_lt (candidates_pairwise ..)⟩

/-- R62: `INTERSECT` holds the keys of both lists. -/
theorem mem_intersect {l l' : List Word} {k : Word} : k ∈ intersect l l' ↔ k ∈ l ∧ k ∈ l' := by
  rw [intersect, List.mem_filter, List.contains_iff_mem]

/-- Settles O39: both lists are the candidates of packets built under `k`, and the intersection keeps their order. -/
theorem intersectionKeepsTheTrueKey : Obligations.IntersectionKeepsTheTrueKey := by
  intro c d d' k l l' hl hl'
  obtain rfl : candidates c d (observed c d k) = l :=
    Option.some_inj.mp ((response_recover_observed_cand c d k).symm.trans hl)
  obtain rfl : candidates c d' (observed c d' k) = l' :=
    Option.some_inj.mp ((response_recover_observed_cand c d' k).symm.trans hl')
  refine ⟨mem_intersect.mpr ⟨key_mem_candidates c d k, key_mem_candidates c d' k⟩,
    (candidates_pairwise ..).filter _, fun k' => ?_⟩
  exact mem_intersect.trans (and_congr mem_candidates_observed mem_candidates_observed)

/-! ### The candidates at levels B and C -/

/-- R46, R77: the key bytes are absorbed after the data. -/
theorem checksum_withKey_of_generator {c : Cfg} {g : Generator} (hg : generatorOf c.checksum = some g) (d : Bytes)
    (k : Word) :
    checksum c.checksum (withKey c d k) = g.fin (absorb g (absorb g g.init d) (enc16 c.keyOrder k).toBytes) := by
  rw [checksum_of_generator hg, evaluate, withKey, absorb_append]

/-- Settles O35: the keys map to the checksums bijectively, so exactly one reproduces the observed checksum. -/
theorem oddCrcRecoversExactlyOneKey : Obligations.OddCrcRecoversExactlyOneKey := by
  intro c p dat obs hc hodd
  have hg : generatorOf c.checksum = some (crcGenerator p) := congrArg generatorOf hc
  have hbij := (crcKeyMapIsBijectiveIffOdd p (absorb (crcGenerator p) p.init dat) c.keyOrder).mpr hodd
  obtain ⟨k, hk, huniq⟩ := hbij.existsUnique (dec16 c.ckOrder obs)
  have hcand : candidates c dat obs = [k] := by
    refine candidates_eq_of_pairwise (List.pairwise_singleton _ k) fun k' => ?_
    rw [List.mem_singleton, checksum_withKey_of_generator hg]
    exact ⟨fun h => h ▸ hk, huniq k'⟩
  refine ⟨k, ?_⟩
  rw [response, recoverResponse, hcand, recoverResult_of_ne_nil (List.cons_ne_nil k [])]
  rfl

/-- R105: in the CRC family the data is XORed in by itself, so it drops out when the checksums of two keys are
compared. -/
theorem checksum_withKey_crc_eq_iff {c : Cfg} {p : CrcParams} (hc : c.checksum = .crc p) {d : Bytes} {k k' : Word} :
    checksum c.checksum (withKey c d k') = checksum c.checksum (withKey c d k) ↔
      crcShifts p.poly 16 (crcKeyInput p c.keyOrder k') = crcShifts p.poly 16 (crcKeyInput p c.keyOrder k) := by
  have hg : generatorOf c.checksum = some (crcGenerator p) := congrArg generatorOf hc
  simp only [checksum_withKey_of_generator hg, absorb_enc16_crc, crcShifts_xor]
  exact (crcFin_bijective p).injective.eq_iff.trans (BitVec.xor_right_inj _)

/-- R70: the byte sum adds the values of two bytes, in either order. -/
theorem absorb_toBytes_sum16 (a : Word) (q : BytePair) :
    absorb sum16 a q.toBytes = a + BitVec.ofNat 16 (q.first.toNat + q.second.toNat) := by
  have hstep : absorb sum16 a q.toBytes = a + q.first.zeroExtend 16 + q.second.zeroExtend 16 := rfl
  rw [hstep, BitVec.add_assoc, BitVec.ofNat_add, BitVec.ofNat_toNat, BitVec.ofNat_toNat]

/-- R49: the sum of the two bytes of a value is the same in both orders. -/
theorem toNat_add_enc16 (o : ByteOrder) (v : Word) :
    (enc16 o v).first.toNat + (enc16 o v).second.toNat = v.toNat / 256 + v.toNat % 256 := by
  cases o with
  | msbFirst => rw [enc16, toNat_hi8, toNat_lo8]
  | lsbFirst => rw [enc16, toNat_hi8, toNat_lo8, Nat.add_comm]

/-- R105, R70: for the byte sum the checksums of two keys compare as the sums of their bytes. -/
theorem checksum_withKey_sum16_eq_iff {c : Cfg} (hc : c.checksum = .iterative sum16) {d : Bytes} {k k' : Word} :
    checksum c.checksum (withKey c d k') = checksum c.checksum (withKey c d k) ↔
      k'.toNat / 256 + k'.toNat % 256 = k.toNat / 256 + k.toNat % 256 := by
  have hg : generatorOf c.checksum = some sum16 := congrArg generatorOf hc
  have hsmall (v : Word) : v.toNat / 256 + v.toNat % 256 < 2 ^ 16 := by omega
  have hfin (acc : Word) : sum16.fin acc = acc := rfl
  simp only [checksum_withKey_of_generator hg, hfin, absorb_toBytes_sum16, toNat_add_enc16, BitVec.add_right_inj]
  rw [← BitVec.toNat_inj, BitVec.toNat_ofNat, BitVec.toNat_ofNat, Nat.mod_eq_of_lt (hsmall k'),
    Nat.mod_eq_of_lt (hsmall k)]

/-- Settles O36: at both levels whether two keys have the same checksum does not depend on the data. -/
theorem candidatesIndependentOfData : Obligations.CandidatesIndependentOfData := by
  intro c d d' k hc
  have hdata (k' : Word) : checksum c.checksum (withKey c d k') = checksum c.checksum (withKey c d k) ↔
      checksum c.checksum (withKey c d' k') = checksum c.checksum (withKey c d' k) := by
    obtain ⟨p, hp⟩ | hsum := hc
    · exact (checksum_withKey_crc_eq_iff hp).trans (checksum_withKey_crc_eq_iff hp).symm
    · exact (checksum_withKey_sum16_eq_iff hsum).trans (checksum_withKey_sum16_eq_iff hsum).symm
  have hcand : candidates c d (observed c d k) = candidates c d' (observed c d' k) :=
    (candidates_pairwise ..).eq_of_mem_iff (candidates_pairwise ..) fun k' =>
      mem_candidates_observed.trans ((hdata k').trans mem_candidates_observed.symm)
  exact congrArg recoverResult hcand

/-- Settles O37: the candidates have the checksum of the key `k`, which for the byte sum is to have its byte sum. -/
theorem byteSumCandidates : Obligations.ByteSumCandidates := fun c d k hc =>
  ⟨_, response_recover_observed_cand c d k, fun _ =>
    mem_candidates_observed.trans (checksum_withKey_sum16_eq_iff hc)⟩

end Sys2Proof.Machine
end

section
/-! PROOFS. Error responses and the idle block (60_exceptions.md R110, R111, R115, R127): what an operation that ends
with an error leaves in the latch, and that an idle block keeps it. -/

namespace Sys2Proof.Machine

/-! ### Error responses -/

/-- R57, R115: an operation that ended with an error left no value in any field but `VALID`, `OP` and `ERR`. -/
theorem Response.shapedAs.get_eq_none {r : Response} {op err : BitVec 3} (h : r.shapedAs op err) (herr : err ≠ 0#3)
    {f : RspField} (hf : f ∉ [RspField.valid, .op, .err]) : r.get f = none := by
  rw [← Option.not_isSome_iff_eq_none]
  intro hheld
  obtain hmem | ⟨hzero, -⟩ := (h f).mp hheld
  · exact hf hmem
  · exact herr hzero

/-- R24: a response is determined by `VALID`, `OP` and `ERR` when no other field holds a value. -/
theorem eq_bareResponse_of_get_eq_none {r : Response} {op err : BitVec 3} (hvalid : r.valid = true)
    (hop : r.op = some op) (herr : r.err = some err)
    (hget : ∀ f, f ∉ [RspField.valid, .op, .err] → r.get f = none) : r = bareResponse op err := by
  have hfield {α : Type} {v : Option α} {g : α → RspValue} (f : RspField) (hf : f ∉ [RspField.valid, .op, .err])
      (hv : r.get f = v.map g) : v = none := Option.map_eq_none_iff.mp (hv.symm.trans (hget f hf))
  cases r
  simp only [bareResponse, Response.empty, Response.mk.injEq]
  exact ⟨hvalid, hop, herr, hfield .sum (by decide) rfl, hfield .raw (by decide) rfl, hfield .dev (by decide) rfl,
    hfield .opc (by decide) rfl, hfield .pay (by decide) rfl, hfield .ck (by decide) rfl,
    hfield .matched (by decide) rfl, hfield .cand (by decide) rfl, hfield .cnt (by decide) rfl,
    hfield .ambig (by decide) rfl⟩

/-- R110, R115: an operation that ended with an error wrote the bare response. -/
theorem Response.writtenBy.eq_bareResponse {r : Response} {op err : BitVec 3} (h : r.writtenBy op err)
    (hne : err ≠ 0#3) : r = bareResponse op err := by
  obtain ⟨hvalid, hop, herr, -, hshape⟩ := h
  exact eq_bareResponse_of_get_eq_none hvalid hop herr fun _ => hshape.get_eq_none hne

/-- R111: the errors of the operations are `InvalidPayloadLength` of `ENCODE` and `DECODE` and `NoCandidateFound` of
`RECOVER`. -/
theorem errorCode_cases {i : Instr} {e : BitVec 3} (h : e ∈ errorCodes (opCode i)) (hne : e ≠ 0#3) :
    e = 1#3 ∧ (opCode i = 0b001#3 ∨ opCode i = 0b010#3) ∨ e = 3#3 ∧ opCode i = 0b100#3 := by
  cases i with
  | cksum dat => exact absurd (List.mem_singleton.mp h) hne
  | encode dev opc pay key => exact .inl ⟨List.mem_singleton.mp (List.mem_of_ne_of_mem hne h), .inl rfl⟩
  | decode raw => exact .inl ⟨List.mem_singleton.mp (List.mem_of_ne_of_mem hne h), .inr rfl⟩
  | verify dev opc pay ck key => exact absurd (List.mem_singleton.mp h) hne
  | recover dat obs => exact .inr ⟨List.mem_singleton.mp (List.mem_of_ne_of_mem hne h), rfl⟩

/-- Settles O42: the response was written with an error among the codes of its operation, so it is the bare one. -/
theorem errorResponseHoldsThreeFields : Obligations.ErrorResponseHoldsThreeFields := by
  intro c i hne
  obtain ⟨e, hw⟩ := response_writtenBy c i
  have ⟨_, _, herr, hcode, _⟩ := hw
  have he : e ≠ 0#3 := fun h => hne (h ▸ herr)
  exact ⟨e, hw.eq_bareResponse he, errorCode_cases hcode he⟩

/-! ### The idle block -/

/-- Settles O52: with no event or a wait the step is a beat, which leaves an idle block as it was. -/
theorem idleBlockKeepsItsResponse : Obligations.IdleBlockKeepsItsResponse := by
  refine fun s hs => ⟨fun hin => ?_, fun rest hin => ?_⟩
  · rw [step_nil hin, beat_idle cfg hs]
  · rw [step_cons hin, takeEvent, beat_idle cfg (s := { s with inbox := rest }) hs]

end Sys2Proof.Machine
end

section
/-! PROOFS. Reset and hazards (70_reset_and_hazards.md R130, R137, R143): the reset event, a request to a busy block,
and the reads of a host that checks `VALID` and `ERR` first. -/

namespace Sys2Proof.Machine

/-- Settles O45: the step applies the reset, whose latch is that of the reset state. -/
theorem resetAbandonsTheOperation : Obligations.ResetAbandonsTheOperation := by
  intro s rest hin
  obtain ⟨hvalid, -, hget⟩ := resetLeavesNoValue
  exact ⟨({ s with inbox := rest } : State).applyReset, step_cons hin, hvalid, rfl, rfl, hget⟩

/-! ### The busy block -/

/-- R137: a request that is waited for leaves a busy block as it was. -/
theorem hostRequest_of_busy {r : Request} {running : Running} {s : State} (hs : s.run = some running) :
    hostRequest r s = .next s := by
  simp only [hostRequest, hs]

/-- R137: a request that is not waited for leaves a busy block as it was. -/
theorem hostStart_of_busy {r : Request} {running : Running} {s : State} (hs : s.run = some running) :
    hostStart r s = s := by
  simp only [hostStart, hs]

/-- Settles O48: the step takes the event, and a busy block answers either way of issuing by staying as it was. -/
theorem busyBlockAdmitsNothing : Obligations.BusyBlockAdmitsNothing := by
  rintro s running r rest hs (hin | hin)
  · rw [step_cons hin, ← hs]
    exact hostRequest_of_busy (s := { s with inbox := rest }) hs
  · rw [step_cons hin, ← hs]
    exact congrArg Host.Outcome.next (hostStart_of_busy (s := { s with inbox := rest }) hs)

/-! ### Disciplined reads -/

/-- R12, R24: `VALID` always holds a value. -/
theorem Response.isSome_get_valid (r : Response) : (r.get .valid).isSome := rfl

/-- R57, R143: a legal latch with `VALID = 1` holds `OP`, `ERR` and, with `ERR = 0`, the result fields of `OP`. -/
theorem Response.wf.isSome_get {c : Cfg} {r : Response} (h : r.wf c) (hvalid : r.valid = true) {f : RspField}
    (hf : f = .op ∨ f = .err ∨ r.err = some 0#3 ∧ ∃ op, r.op = some op ∧ f ∈ resultFields op) :
    (r.get f).isSome := by
  obtain ⟨hinvalid, -⟩ | ⟨-, ⟨op, err, hop, herr, -, hshape⟩, -, -⟩ := h
  · exact absurd (hvalid.symm.trans hinvalid) (by decide)
  · refine (hshape f).mpr ?_
    obtain rfl | rfl | ⟨hzero, op', hop', hmem⟩ := hf
    · exact .inl (by decide)
    · exact .inl (by decide)
    · obtain rfl : err = 0#3 := Option.some.inj (herr.symm.trans hzero)
      obtain rfl : op = op' := Option.some.inj (hop.symm.trans hop')
      exact .inr ⟨rfl, hmem⟩

/-- Settles O51: the field read holds a value by the legality of the latch, and O49 gives the step. -/
theorem disciplinedReadsNeverFault : Obligations.DisciplinedReadsNeverFault := by
  rintro s f rest ⟨hrsp, -⟩ hin hf
  refine (readFaultsExactlyWithoutValue s f rest hin).1 ?_
  obtain rfl | ⟨hvalid, hf⟩ := hf
  · exact s.rsp.isSome_get_valid
  · exact hrsp.isSome_get hvalid hf

end Sys2Proof.Machine
end
